-- ==== Sys2Proof/Word.lean ====
section
/-! DEFINITION. The word types of the SLA-4 and their plainest conversions (00 section 5.1, R1). -/

namespace Sys2Proof

/-- One octet of the distribution link. -/
abbrev Byte := BitVec 8

/-- A tick count: edges of REF_10M, modulo 2^56 (R1). -/
abbrev Tick := BitVec 56

/-- A time in sub-ticks: the tick count times 65536 plus a fraction (R1). -/
abbrev Fx := BitVec 72

/-- An epoch number (R14). -/
abbrev EpochNo := BitVec 32

/-- A full cycle number, epoch number div 4 (R58). -/
abbrev CycleNo := BitVec 30

/-- A batch id (R58). -/
abbrev BatchId := BitVec 16

end Sys2Proof
end

