-- ==== Sys2Proof/Syntax.lean ====
section
/-! DEFINITION. The commands of the SLA-4: one constructor of `Instr` for each row of spec/opcode_table.json. -/

namespace Sys2Proof

/-- The four carriers (00 section 5.2). -/
inductive Carrier where
  | c1 | c2 | c3 | c4
  deriving DecidableEq, Repr

/-- The two ports of the distribution link (R152). -/
inductive Port where
  | up | down
  deriving DecidableEq, Repr

/-- A frame as a port receives it, without its kind octet: destination, source, tag, body octets and check octets
(section 9.6). Its length octet is the number of body octets. -/
structure RxFrame where
  dest  : BitVec 12
  src   : BitVec 12
  tag   : Byte
  body  : List Byte
  check : BitVec 16
  deriving DecidableEq, Repr

/-- A frame with its kind octet. -/
structure Frame where
  dest  : BitVec 12
  src   : BitVec 12
  kind  : Byte
  tag   : Byte
  body  : List Byte
  check : BitVec 16
  deriving DecidableEq, Repr

/-- A received frame under the kind of its row. -/
def RxFrame.withKind (f : RxFrame) (kind : Byte) : Frame :=
  { dest := f.dest, src := f.src, kind := kind, tag := f.tag, body := f.body, check := f.check }

/-- The commands: frames received, changes of the input pins, and the instants the part's own timers reach. -/
inductive Instr where
  /-- POWER_ON (R176): power-up, with the levels of the ADDR straps. -/
  | powerOn (straps : BitVec 12)
  /-- RESET_PIN (R176): release of the reset pin, with the levels of the ADDR straps. -/
  | resetPin (straps : BitVec 12)
  /-- CLOCK_LOST (R2). -/
  | clockLost
  /-- CLOCK_RETURN (R3). -/
  | clockReturn
  /-- EPOCH_PULSE (R5, R10, R11). -/
  | epochPulse
  /-- HOLDOVER_EPOCH_START (R12). -/
  | holdoverEpochStart
  /-- TIME_MARK (R17). -/
  | timeMark (f : RxFrame)
  /-- BATCH_HEADER (R63). -/
  | batchHeader (f : RxFrame)
  /-- BATCH_BLOCK (R70). -/
  | batchBlock (f : RxFrame)
  /-- CANCEL (R75). -/
  | cancel (f : RxFrame)
  /-- LOAD_SITE (R166). -/
  | loadSite (f : RxFrame)
  /-- ENABLE_SERVICE (R169). -/
  | enableService (f : RxFrame)
  /-- RESTART (R175). -/
  | restart (f : RxFrame)
  /-- STATUS (R170). -/
  | status (f : RxFrame)
  /-- COUNTERS (R174). -/
  | counters (f : RxFrame)
  /-- CLEAR_ALARMS (R173). -/
  | clearAlarms (f : RxFrame)
  /-- LOAD_ALIGN (R43). -/
  | loadAlign (f : RxFrame)
  /-- COMMIT_ALIGN (R46). -/
  | commitAlign (f : RxFrame)
  /-- READ_ALIGN (R51). -/
  | readAlign (f : RxFrame)
  /-- EPOCH_SET (R20). -/
  | epochSet (f : RxFrame)
  /-- SCHEDULE (R171). -/
  | schedule (f : RxFrame)
  /-- STANDBY (R121). -/
  | standby (f : RxFrame)
  /-- MARKER_LOAD (R131). -/
  | markerLoad (f : RxFrame)
  /-- MARKER_CLEAR (R133). -/
  | markerClear (f : RxFrame)
  /-- PROBE_START (R140). -/
  | probeStart (f : RxFrame)
  /-- PROBE_ABORT (R149). -/
  | probeAbort (f : RxFrame)
  /-- PROBE_RESULT (R150). -/
  | probeResult (f : RxFrame)
  /-- GUARD_TEST (R84). -/
  | guardTest (f : RxFrame)
  /-- UNKNOWN_REQUEST (R165): a frame of an undefined kind, or REPLY or CYCLE_REPORT, on UP. -/
  | unknownRequest (kind : Byte) (f : RxFrame)
  /-- DOWN_FRAME_RELAY (R158): a frame received on the DOWN port. -/
  | downFrameRelay (f : Frame)
  /-- REPEAT_TX_START (R156). -/
  | repeatTxStart
  /-- REPEAT_TX_END (R156). -/
  | repeatTxEnd
  /-- UP_TX_START (R160). -/
  | upTxStart
  /-- UP_TX_END (R160). -/
  | upTxEnd
  /-- TABLE_ROLL (R45). -/
  | tableRoll
  /-- CURRENT_CYCLE_ADVANCE (R62). -/
  | currentCycleAdvance (c : Carrier)
  /-- SLOT_DECISION (R87). -/
  | slotDecision (c : Carrier)
  /-- KEY_UP (R113). -/
  | keyUp (c : Carrier)
  /-- SYMBOL_EMIT (R30). -/
  | symbolEmit (c : Carrier)
  /-- PAYLOAD_END (R31). -/
  | payloadEnd (c : Carrier)
  /-- TAIL_EXPIRY (R115). -/
  | tailExpiry (c : Carrier)
  /-- WAKE_EXPIRY (R122). -/
  | wakeExpiry (c : Carrier)
  /-- SLOT_END (R102). -/
  | slotEnd (c : Carrier)
  /-- RF_SENSE_CHANGE (R125): the line of carrier `c` goes to `present`. -/
  | rfSenseChange (c : Carrier) (present : Bool)
  /-- STUCK_CARRIER (R125). -/
  | stuckCarrier (c : Carrier)
  /-- MOD_SENSE_CHANGE (R144). -/
  | modSenseChange (c : Carrier)
  /-- LOAD_SETTLE_END (R142). -/
  | loadSettleEnd
  /-- KEY_UP_END (R143). -/
  | keyUpEnd
  /-- PROBE_EMISSION (R143). -/
  | probeEmission
  /-- EDGE_WINDOW_CLOSE (R144). -/
  | edgeWindowClose
  /-- PROBE_PHASE_END (R145). -/
  | probePhaseEnd
  /-- KEY_DOWN_END (R142). -/
  | keyDownEnd
  /-- LOAD_RETURN_END (R146). -/
  | loadReturnEnd
  /-- OBSERVE_END (R147). -/
  | observeEnd
  /-- REFERENCE_CLOCK_EDGE (R1). -/
  | referenceClockEdge
  /-- SYNC_WORD_MATCH (R153): the last 16 bits a port has received. -/
  | syncWordMatch (p : Port) (lastBits : BitVec 16)
  deriving DecidableEq, Repr

/-- The kinds the link defines for frames toward a site (section 9.6): the four traffic kinds and the eighteen requests. -/
def definedKinds : List Byte :=
  [0x01, 0x02, 0x03, 0x04, 0x20, 0x21, 0x22, 0x23, 0x24, 0x25, 0x28, 0x29, 0x2A, 0x2C, 0x2D,
   0x30, 0x31, 0x32, 0x34, 0x35, 0x36, 0x38]

/-- A kind that UNKNOWN_REQUEST answers: undefined, REPLY or CYCLE_REPORT (R157, R165). -/
def kindUnknown (k : Byte) : Bool := !definedKinds.contains k

end Sys2Proof
end

