-- ==== Sys2Proof/Decode.lean ====
section
/-! DEFINITION. The commands a table word spells. -/

namespace Sys2Proof

/-- No row of spec/opcode_table.json gives bits ("fields": [], no "fixed"): no word spells a command (log 26). -/
def decodeTableWord (_nbits _w : Nat) : Option Instr := none

end Sys2Proof
end

