-- ==== Sys2Proof/Config.lean ====
section
/-! DEFINITION. The constants of the part and its one free value. -/

namespace Sys2Proof.Config

/-- Ticks of one millisecond (00 section 5.1). -/
def msTicks : Nat := 10000

/-- Shortest and longest good epoch interval, in ticks (R5). -/
def intervalMin : Nat := 9999000
def intervalMax : Nat := 10001000

/-- Entries of a full epoch history (R7). -/
def historyDepth : Nat := 8

/-- The mark guard before the next epoch's predicted tick (R17). -/
def markGuard : Nat := 500000

/-- The mark guard after the last pulse tick in ACQUIRING (R17). -/
def acquiringGuard : Nat := 9500000

/-- The part of the decision lead that every carrier has: 2.5 ms (R86). -/
def decisionMargin : Nat := 25000

/-- The table roll's distance before Pred(4n) (R45). -/
def rollLead : Nat := 1225001

/-- Largest launch offset, in ns (R27). -/
def offsetLimit : Int := 2500000

/-- Largest path delay, in ns (R55). -/
def delayLimit : Int := 2000000

/-- Records of the Batch Table (R58). -/
def tableSize : Nat := 64

/-- Blocks of the Symbol Store (R80). -/
def storeSize : Nat := 2048

/-- Entries of a suspension stack (R94). -/
def stackDepth : Nat := 4

/-- Frames of the own queue and of the relay queue (R158, R159). -/
def queueDepth : Nat := 8

/-- Consecutive good STARTs at which the run returns to 0 (R99). -/
def goodStartLimit : Nat := 64

/-- A presence run that latches STUCK_CARRIER: 100 ms (R125). -/
def stuckTicks : Nat := 1000000

/-- One unit of wake time: 10 ms (R122). -/
def wakeUnit : Nat := 100000

/-- Lengths of the timed probe phases (section 8.3, R147). -/
def loadSettleTicks : Nat := 200000
def probeTicks : Nat := 1280000
def keyDownTicks : Nat := 100000
def loadReturnTicks : Nat := 200000
def observeTicks : Nat := 500000

/-- Distance of two probes and length of an edge window (R143, R144). -/
def probeSpacing : Nat := 80000
def edgeWindow : Nat := 20000

/-- Largest spread of a valid result, in ticks (R145). -/
def spreadLimit : Nat := 20

/-- The destination of broadcast frames (R155). -/
def broadcast : BitVec 12 := 4095

/-- The sync word (R153). -/
def syncWord : BitVec 16 := 0xA5C3

/-- DESIGN CHOICE (log 5), UNSAFE: the strap setting of `State.reset`, the site address of the manual's worked examples. -/
def resetStraps : BitVec 12 := 291

/-- FREE VALUE (log 21): the power octet a STANDBY reply carries, "with every code" (file 10, section 10.2), when the
request's carrier octet names no carrier. Nothing constrains it. -/
opaque standbyPowerOctet : Byte → Byte

end Sys2Proof.Config
end

