-- ==== Sys2Proof/Machine/State.lean ====
section
/-! DEFINITION. The state of the SLA-4: every piece of state its chapters name, as plain data, and its value after reset. -/

namespace Sys2Proof.Machine

/-! ### One value per carrier -/

/-- Four values, one for each carrier. -/
structure Quad (α : Type) where
  c1 : α
  c2 : α
  c3 : α
  c4 : α
  deriving DecidableEq, Repr

/-- The value of carrier `c`. -/
def Quad.get {α : Type} (q : Quad α) (c : Carrier) : α :=
  match c with
  | .c1 => q.c1
  | .c2 => q.c2
  | .c3 => q.c3
  | .c4 => q.c4

/-- The four values with carrier `c`'s replaced. -/
def Quad.set {α : Type} (q : Quad α) (c : Carrier) (x : α) : Quad α :=
  match c with
  | .c1 => { q with c1 := x }
  | .c2 => { q with c2 := x }
  | .c3 => { q with c3 := x }
  | .c4 => { q with c4 := x }

/-- The same value for every carrier. -/
def Quad.all {α : Type} (x : α) : Quad α := ⟨x, x, x, x⟩

/-- The four values, each changed by a function of its carrier. -/
def Quad.map {α β : Type} (f : Carrier → α → β) (q : Quad α) : Quad β :=
  ⟨f .c1 q.c1, f .c2 q.c2, f .c3 q.c3, f .c4 q.c4⟩

/-! ### Epoch Tracker (file 01) -/

/-- The reference states (file 01, section 1.2). -/
inductive RefState where
  | noClock | acquiring | locked | holdover
  deriving DecidableEq, Repr

/-- The kind of an epoch start and of its anchor (R8). -/
inductive StartKind where
  | pulse | holdover
  deriving DecidableEq, Repr

/-- The current anchor: the sub-tick start of the current epoch, with its kind (R8). -/
structure Anchor where
  start : Fx
  kind  : StartKind
  deriving DecidableEq, Repr

/-- A predicted epoch start and the Sum8 it was formed from: the grid of that epoch (R8, R23). -/
structure Grid where
  pred : Fx
  sum8 : Nat
  deriving DecidableEq, Repr

/-- The kinds of a pending number (R18, R19, R20). -/
inductive PendingKind where
  | markSet | adopt | forced
  deriving DecidableEq, Repr

/-- A pending number (file 01, state table). -/
structure PendingNumber where
  kind   : PendingKind
  number : EpochNo
  deriving DecidableEq, Repr

/-- The Epoch Tracker's state (file 01, state table). -/
structure Tracker where
  tick           : Tick
  ref            : RefState
  epoch          : Option EpochNo        -- none is UNSET
  lastPulse      : Option Tick
  history        : List Nat              -- newest first; Sum8 is computed from it
  anchor         : Option Anchor
  next           : Option Grid           -- next prediction, with its Sum8
  current        : Option Grid           -- current grid
  window         : Option Nat            -- OPEN, with the W in force when it was formed
  h              : Nat
  pending        : Option PendingNumber
  mismatchRun    : Nat
  mismatchOffset : BitVec 32
  deriving DecidableEq, Repr

/-! ### Alignment Table (file 03) -/

/-- A group row (R41). -/
structure GroupRow where
  enabled : Bool
  offset  : Int
  deriving DecidableEq, Repr

/-- A carrier record: deviation gain G, centre offset C and sixteen group rows (R41). -/
structure CarrierRecord where
  gain   : BitVec 16
  centre : Int
  rows   : Vector GroupRow 16
  deriving DecidableEq, Repr

/-- A bank: four carrier records and a version tag (R41, R42). -/
structure Bank where
  records : Quad CarrierRecord
  tag     : BitVec 16
  deriving DecidableEq, Repr

/-- A pending switch: target start epoch S and version V (R47). -/
structure PendingSwitch where
  target  : EpochNo
  version : BitVec 16
  deriving DecidableEq, Repr

/-- The path delay in force and the pending delay of a carrier, in ns (R55). -/
structure PathDelay where
  value   : Nat
  pending : Option Nat
  deriving DecidableEq, Repr

/-- The Alignment Table's state (file 03, state table). -/
structure Align where
  active   : Bank
  staged   : Bank
  pending  : Option PendingSwitch
  delays   : Quad PathDelay
  lastRoll : Option Tick                 -- the model's own: tick of the latest table roll (log 22)
  deriving DecidableEq, Repr

/-! ### Batch Manager and Symbol Store (file 04) -/

/-- The rate classes (R25). -/
inductive RateClass where
  | a | b | c
  deriving DecidableEq, Repr

/-- The modulations (R35). -/
inductive Modulation where
  | level4 | level2
  deriving DecidableEq, Repr

/-- The states of a batch (R59). -/
inductive BatchState where
  | pending | complete | onAir | suspended
  deriving DecidableEq, Repr

/-- The last index and last count of a batch (R58). -/
structure LastMark where
  index : Nat
  count : Nat
  deriving DecidableEq, Repr

/-- A batch record (R58). -/
structure Batch where
  id            : BatchId
  carrier       : Carrier
  cycle         : CycleNo
  start         : Fin 32
  slots         : Nat
  group         : Fin 16
  priority      : Fin 4
  rate          : RateClass
  modulation    : Modulation
  blocks        : List (Option Nat)      -- position to store block
  last          : Option LastMark
  nextBlock     : Nat
  malformed     : Bool
  starved       : Bool
  cancelPending : Bool
  completion    : Option Tick
  state         : BatchState
  deriving DecidableEq, Repr

/-- A claim map: 32 entries (R61). -/
abbrev ClaimMap := Vector (Option BatchId) 32

/-- A carrier's current and next claim map, with the cycle the current one is for (R61, R62). -/
structure ClaimMaps where
  label   : Option CycleNo
  current : ClaimMap
  next    : ClaimMap
  deriving DecidableEq, Repr

/-- The tag of a store block (R80). -/
inductive BlockTag where
  | free
  | held (id : BatchId) (index : Nat)
  | spent
  deriving DecidableEq, Repr

/-- A store block: its tag and 40 two-bit symbol codes, symbol 0 in the two highest bits, as the frame carries them
(R80, section 9.6.1). -/
structure StoreBlock where
  tag   : BlockTag
  codes : BitVec 80
  deriving DecidableEq, Repr

/-- The Symbol Store (R80, R81): the blocks that differ from an unlisted one, numbers strictly rising. -/
structure Store where
  cells     : List (Nat × StoreBlock)
  freeCount : Nat
  low       : Bool                       -- STORE_LOW
  deriving DecidableEq, Repr

/-! ### Slots, runs and the Slot Scheduler (files 02 and 05) -/

/-- A numbered slot of a timed epoch: cycle and index, position, and the grid of its epoch (R22 to R24). -/
structure SlotRef where
  cycle : CycleNo
  index : Fin 32
  pos   : Fin 8
  grid  : Grid
  deriving DecidableEq, Repr

/-- A word set: the G and C that give its five words (R36). -/
structure WordSet where
  gain   : BitVec 16
  centre : Int
  deriving DecidableEq, Repr

/-- What a run emits (R118, R135). -/
inductive RunContent where
  | batch (id : BatchId) (first count : Nat) (modulation : Modulation) (last : LastMark)
  | marker
  deriving DecidableEq, Repr

/-- A run of the Launch Timer (R32): its slot, launch instant, step, symbol count, next symbol position, word set and
content; `ended` once its batch has ended while it emits (R97). -/
structure Run where
  slot    : SlotRef
  launch  : Fx
  tfx     : Nat
  symbols : Nat
  pos     : Nat
  words   : WordSet
  content : RunContent
  ended   : Bool
  deriving DecidableEq, Repr

/-- A carrier's Launch Timer (file 02, state table). -/
structure LaunchTimer where
  active    : Option Run
  armed     : Option Run
  finishing : Option Run
  acc       : Fx
  step      : Nat
  deriving DecidableEq, Repr

/-- A slot's program (file 05). -/
inductive Program where
  | start (id : BatchId)
  | cont (id : BatchId)
  | resume (id : BatchId)
  | markerOn
  | markerGap
  | quiet
  deriving DecidableEq, Repr

/-- The slot outcome codes (R100). -/
inductive OutcomeCode where
  | quiet | markerGap | cancelled | displaced | overlap | incomplete | malformed | notInGroup | waking | measuring
  | guardFault | noTiming | markerSent | sent | cut
  deriving DecidableEq, Repr

/-- An outcome code with its batch id, if it has one (R100). -/
structure SlotOutcome where
  code : OutcomeCode
  id   : Option BatchId
  deriving DecidableEq, Repr

/-- A slot decided and not yet recorded (R87). Its run, if any, is the Launch Timer's run of the same slot. -/
structure OpenSlot where
  slot    : SlotRef
  program : Program
  held    : Option SlotOutcome
  deriving DecidableEq, Repr

/-- The outcome array (R102). -/
structure OutcomeArray where
  label   : Option CycleNo
  entries : Vector (Option SlotOutcome) 32
  deriving DecidableEq, Repr

/-- Why the on-air batch has been stopped, its end waiting for a payload end (R92). -/
inductive StopReason where
  | cancelled | notInGroup
  deriving DecidableEq, Repr

/-- A slot 31 recorded by an early epoch start, and the tick at which its span ends (R101, R102, log 35). -/
structure ClosedSlot where
  slot    : SlotRef
  spanEnd : Tick
  deriving DecidableEq, Repr

/-- A carrier's Slot Scheduler state (file 05, state table). -/
structure Scheduler where
  onAir      : Option BatchId
  stop       : Option StopReason         -- deferred stop of the on-air batch (log 29)
  incoming   : Option BatchId
  stack      : List BatchId              -- newest first
  openSlots  : List OpenSlot             -- oldest first
  lastMargin : Option Nat
  goodStarts : Nat
  outcomes   : OutcomeArray
  settled    : Option Fx                 -- the model's own: start of the latest slot decided or passed over (log 17)
  closed     : Option ClosedSlot         -- the model's own: slot 31 as the latest epoch start recorded it (R102, log 35)
  deriving DecidableEq, Repr

/-! ### Key Control and Carrier Monitor (file 06) -/

/-- The key states (R111), with the instants that belong to them. -/
inductive KeyState where
  | released
  | pending (keyUp : Tick)
  | keyed
  | tail (expiry : Tick)
  | probe
  deriving DecidableEq, Repr

/-- The power states (R120), with the wake expiry. -/
inductive PowerState where
  | active
  | awakening (expiry : Tick)
  | standby
  deriving DecidableEq, Repr

/-- The latest NO_CARRIER check: its tick, and whether the alarm was clear before it (R124, log 45). -/
structure CarrierCheck where
  tick     : Tick
  wasClear : Bool
  deriving DecidableEq, Repr

/-- A carrier's Carrier Monitor state (file 06, state table). -/
structure Monitor where
  opening  : Option SlotRef              -- slot of the opening run
  presence : Option Tick
  rfSense  : Bool                        -- the line as last sampled
  rfPin    : Bool                        -- the level at the pin (log 6)
  checked  : Option CarrierCheck         -- the model's own: the latest NO_CARRIER check (R124, log 45)
  deriving DecidableEq, Repr

/-! ### Counters (R174) -/

/-- The reasons a header is refused for, in the order of the checks (R64 to R68). -/
inductive RefuseReason where
  | notServing | noTiming | carrierOff | badField | notInGroup | tooEarly | late | span | slotReserved | duplicate
  | tableFull | claimed
  deriving DecidableEq, Repr

/-- A carrier's counters (R174). -/
structure CarrierCounters where
  sent          : BitVec 16
  dropped       : BitVec 16
  refused       : Vector (BitVec 16) 12
  blockDiscards : BitVec 16
  clampedWords  : BitVec 16
  lowMargins    : BitVec 16
  deriving DecidableEq, Repr

/-- The traffic kinds (R157). -/
inductive TrafficKind where
  | timeMark | batchHeader | batchBlock | cancel
  deriving DecidableEq, Repr

/-- The part-wide counters (R157, R162, R174). -/
structure PartCounters where
  badFrames     : BitVec 16
  ownDrops      : BitVec 16
  relayDrops    : BitVec 16
  marksRejected : BitVec 16
  strayPulses   : BitVec 16
  taken         : Vector (BitVec 16) 4
  unmatched     : Vector (BitVec 16) 4
  requests      : BitVec 16
  deriving DecidableEq, Repr

/-! ### Everything one carrier has -/

/-- The state of one carrier, block by block. -/
structure CarrierState where
  maps        : ClaimMaps
  sched       : Scheduler
  timer       : LaunchTimer
  word        : Int                      -- current word
  key         : KeyState
  power       : PowerState
  monitor     : Monitor
  marker      : List Bool                -- marker sequence, oldest first
  load        : Bool                     -- LOAD line
  modPin      : Bool                     -- level of MOD_SENSE at the pin (log 6)
  guardArmed  : Bool                     -- guard test (R84)
  guardMarker : Bool                     -- STORE_GUARD's test marker (R84)
  counters    : CarrierCounters
  deriving DecidableEq, Repr

/-! ### Delay Probe (file 08) -/

/-- The phases of the probe context (R139). -/
inductive ProbePhase where
  | idle | loadSettle | keyUp | probe | keyDown | loadReturn | observe
  deriving DecidableEq, Repr

/-- The probe's modes. -/
inductive ProbeMode where
  | path | quiet
  deriving DecidableEq, Repr

/-- One sample (R144). -/
inductive Sample where
  | notTaken
  | missed
  | delay (ticks : Nat)
  deriving DecidableEq, Repr

/-- The assessment of the sixteen samples (R145). -/
structure Assessment where
  valid  : Bool
  mean   : Option Nat
  spread : Option Nat
  deriving DecidableEq, Repr

/-- The outcomes of a probe (R146 to R148). -/
inductive ProbeOutcome where
  | valid | invalid | pass | fail | aborted
  deriving DecidableEq, Repr

/-- A result record (R146 to R148). -/
structure ProbeRecord where
  carrier    : Carrier
  mode       : ProbeMode
  outcome    : ProbeOutcome
  abortPhase : ProbePhase
  samples    : List Sample
  delays     : Nat
  mean       : Option Nat
  spread     : Option Nat
  smallest   : Option Nat
  largest    : Option Nat
  adopt      : Bool
  adopted    : Bool
  firstRf    : Option Tick
  endTick    : Option Tick               -- the model's own: tick at which a QUIET check ended (R147, log 19)
  deriving DecidableEq, Repr

/-- The probe context (file 08, state table). BUSY is `phase ≠ idle`. -/
structure Probe where
  phase      : ProbePhase
  carrier    : Carrier
  mode       : ProbeMode
  adopt      : Bool
  phaseEnd   : Option Tick
  words      : WordSet
  samples    : List Sample
  emitted    : Nat
  assessment : Option Assessment
  aborting   : Bool
  abortPhase : ProbePhase
  noResult   : Bool
  firstRf    : Option Tick
  result     : Option ProbeRecord
  done       : Bool
  aborted    : Bool
  deriving DecidableEq, Repr

/-! ### Link Interface (file 09) -/

/-- A receiver's state (R153). -/
inductive RxState where
  | hunt
  | inFrame (taken : List Byte)
  deriving DecidableEq, Repr

/-- The two upstream queues (R160). -/
inductive QueueName where
  | own | relay
  deriving DecidableEq, Repr

/-- The Link Interface's state (file 09, state table). -/
structure Link where
  straps      : BitVec 12                -- levels of the ADDR straps
  siteAddress : BitVec 12
  rxUp        : RxState
  rxDown      : RxState
  repeatStore : List Frame
  repeating   : Bool                     -- the first frame of the repeat store is being sent
  own         : List Frame
  relay       : List Frame
  sending     : Option (QueueName × Frame)   -- none is IDLE
  chosen      : Option QueueName         -- chosen, waiting for the octet boundary (log 11)
  turn        : QueueName
  deriving DecidableEq, Repr

/-! ### Management Unit (file 10) -/

/-- The service states (R164). -/
inductive ServiceState where
  | unconfigured | configured | serving
  deriving DecidableEq, Repr

/-- The reset causes (R176). -/
inductive ResetCause where
  | powerOn | resetPin | restart
  deriving DecidableEq, Repr

/-- The claim modes (R68). -/
inductive ClaimMode where
  | strict | replace
  deriving DecidableEq, Repr

/-- A carrier's site parameters (R166), but for the path delay, which the Alignment Table holds. -/
structure CarrierParams where
  enabled     : Bool
  lead        : Nat                      -- ms
  tail        : Nat                      -- ms
  wake        : Nat                      -- units of 10 ms
  claimMode   : ClaimMode
  markerSlot  : Option (Fin 32)          -- none is NONE
  markerGroup : Fin 16
  warn        : Nat                      -- ms
  reports     : Bool
  deriving DecidableEq, Repr

/-- The site parameters (R166). -/
structure SiteParams where
  w         : Nat
  h         : Nat
  storeLow  : Nat
  storeHigh : Nat
  mask      : BitVec 32
  autoClear : Bool
  carriers  : Quad CarrierParams
  deriving DecidableEq, Repr

/-- The Management Unit's state (file 10, state table), but for the counters of single carriers. -/
structure Mgmt where
  service  : ServiceState
  params   : SiteParams
  alarms   : BitVec 32                   -- the alarm set (section 9.6.2)
  cause    : ResetCause
  counters : PartCounters
  deriving DecidableEq, Repr

/-! ### The machine -/

/-- The state of the part, and the queue of the commands that wait. -/
structure State where
  tracker   : Tracker
  align     : Align
  batches   : List Batch                 -- ascending batch id
  store     : Store
  carriers  : Quad CarrierState
  probe     : Probe
  link      : Link
  mgmt      : Mgmt
  firstEdge : Bool                       -- the model's own: no reference edge since reset (R129, log 6)
  pending   : List Instr
  deriving DecidableEq, Repr

/-- The part never stops: no event of the spec ends in a fault of the machine. -/
inductive Fault where
  deriving DecidableEq, Repr

/-- Why a command has no meaning. -/
inductive Refusal where
  /-- Raised by an arm of `exec` whose command has no meaning yet: safe, the machine stops. No arm raises it. -/
  | notModelled (mnemonic : String)
  deriving DecidableEq, Repr

/-! ### Reset -/

/-- The Tracker after power-on and the reset pin (R4). -/
def Tracker.reset : Tracker :=
  { tick := 0, ref := .acquiring, epoch := none, lastPulse := none, history := [], anchor := none, next := none,
    current := none, window := none, h := 0, pending := none, mismatchRun := 0, mismatchOffset := 0 }

/-- An empty carrier record (R41). -/
def CarrierRecord.reset : CarrierRecord :=
  { gain := 0, centre := 0, rows := Vector.replicate 16 { enabled := false, offset := 0 } }

/-- An empty bank (R41). -/
def Bank.reset : Bank := { records := Quad.all CarrierRecord.reset, tag := 0 }

/-- The Alignment Table after power-on and the reset pin (R41, R57). -/
def Align.reset : Align :=
  { active := Bank.reset, staged := Bank.reset, pending := none, delays := Quad.all { value := 0, pending := none },
    lastRoll := none }

/-- The Symbol Store after a reset: every block FREE (R85). DESIGN CHOICE (log 8): codes 0. -/
def Store.reset : Store := { cells := [], freeCount := Config.storeSize, low := false }

/-- An empty claim map. -/
def ClaimMap.empty : ClaimMap := Vector.replicate 32 none

/-- The claim maps after power-on: empty and unlabelled (R79). -/
def ClaimMaps.reset : ClaimMaps := { label := none, current := ClaimMap.empty, next := ClaimMap.empty }

/-- An outcome array with no label and empty entries (R108). -/
def OutcomeArray.reset : OutcomeArray := { label := none, entries := Vector.replicate 32 none }

/-- The Scheduler after power-on (R108). -/
def Scheduler.reset : Scheduler :=
  { onAir := none, stop := none, incoming := none, stack := [], openSlots := [], lastMargin := none, goodStarts := 0,
    outcomes := OutcomeArray.reset, settled := none, closed := none }

/-- The Launch Timer after power-on (R40). -/
def LaunchTimer.reset : LaunchTimer := { active := none, armed := none, finishing := none, acc := 0, step := 0 }

/-- A carrier's counters at 0 (R174). -/
def CarrierCounters.reset : CarrierCounters :=
  { sent := 0, dropped := 0, refused := Vector.replicate 12 0, blockDiscards := 0, clampedWords := 0, lowMargins := 0 }

/-- The part-wide counters at 0 (R162, R174). -/
def PartCounters.reset : PartCounters :=
  { badFrames := 0, ownDrops := 0, relayDrops := 0, marksRejected := 0, strayPulses := 0,
    taken := Vector.replicate 4 0, unmatched := Vector.replicate 4 0, requests := 0 }

/-- A carrier after power-on (R40, R79, R108, R129, R130), with the level of its RF_SENSE and MOD_SENSE pins. -/
def CarrierState.reset (rfPin modPin : Bool) : CarrierState :=
  { maps := ClaimMaps.reset, sched := Scheduler.reset, timer := LaunchTimer.reset, word := 0, key := .released,
    power := .active, monitor := { opening := none, presence := none, rfSense := false, rfPin := rfPin, checked := none },
    marker := [], load := false, modPin := modPin, guardArmed := false, guardMarker := false,
    counters := CarrierCounters.reset }

/-- Sixteen samples not yet taken (R139). -/
def Probe.noSamples : List Sample := List.replicate 16 .notTaken

/-- The probe context after power-on (R139). DESIGN CHOICE (log 9): word set 0, no probe emitted, abort phase IDLE. -/
def Probe.reset : Probe :=
  { phase := .idle, carrier := .c1, mode := .path, adopt := false, phaseEnd := none, words := { gain := 0, centre := 0 },
    samples := Probe.noSamples, emitted := 0, assessment := none, aborting := false, abortPhase := .idle,
    noResult := false, firstRf := none, result := none, done := false, aborted := false }

/-- The link after power-on (R163), with the straps it reads. -/
def Link.reset (straps : BitVec 12) : Link :=
  { straps := straps, siteAddress := straps, rxUp := .hunt, rxDown := .hunt, repeatStore := [], repeating := false,
    own := [], relay := [], sending := none, chosen := none, turn := .own }

/-- The default site parameters of a carrier (R166). -/
def CarrierParams.default : CarrierParams :=
  { enabled := false, lead := 20, tail := 50, wake := 0, claimMode := .strict, markerSlot := none, markerGroup := 0,
    warn := 250, reports := false }

/-- The default site parameters (R166, R168). -/
def SiteParams.default : SiteParams :=
  { w := 20, h := 300, storeLow := 256, storeHigh := 512, mask := 0, autoClear := false,
    carriers := Quad.all CarrierParams.default }

/-- The Management Unit after power-on (R176), with the recorded cause. -/
def Mgmt.reset (cause : ResetCause) : Mgmt :=
  { service := .unconfigured, params := SiteParams.default, alarms := 0, cause := cause, counters := PartCounters.reset }

/-- Every block at its power-on state (R176), given the straps, the cause, the carriers with the levels their pins have,
and the queue. -/
def State.powerOn (straps : BitVec 12) (cause : ResetCause) (carriers : Quad CarrierState) (queue : List Instr) : State :=
  { tracker := Tracker.reset, align := Align.reset, batches := [], store := Store.reset, carriers := carriers,
    probe := Probe.reset, link := Link.reset straps, mgmt := Mgmt.reset cause, firstEdge := true, pending := queue }

/-- The part right after power-on. DESIGN CHOICE (log 5, log 6): the straps are those of the manual's examples and every
sense pin is low. -/
def State.reset : State :=
  State.powerOn Config.resetStraps .powerOn (Quad.all (CarrierState.reset false false)) []

/-! ### One update function per field of State and of a carrier -/

def State.setTracker (s : State) (x : Tracker) : State := { s with tracker := x }
def State.setAlign (s : State) (x : Align) : State := { s with align := x }
def State.setBatches (s : State) (x : List Batch) : State := { s with batches := x }
def State.setStore (s : State) (x : Store) : State := { s with store := x }
def State.setCarriers (s : State) (x : Quad CarrierState) : State := { s with carriers := x }
def State.setProbe (s : State) (x : Probe) : State := { s with probe := x }
def State.setLink (s : State) (x : Link) : State := { s with link := x }
def State.setMgmt (s : State) (x : Mgmt) : State := { s with mgmt := x }
def State.setFirstEdge (s : State) (x : Bool) : State := { s with firstEdge := x }
def State.setPending (s : State) (x : List Instr) : State := { s with pending := x }

/-- The state of carrier `c`. -/
def State.car (s : State) (c : Carrier) : CarrierState := s.carriers.get c

/-- Carrier `c`'s state replaced. -/
def State.setCar (s : State) (c : Carrier) (k : CarrierState) : State := s.setCarriers (s.carriers.set c k)

/-- Carrier `c`'s state changed by `f`. -/
def State.modCar (c : Carrier) (f : CarrierState → CarrierState) (s : State) : State := s.setCar c (f (s.car c))

/-- The site parameters of carrier `c`. -/
def State.par (s : State) (c : Carrier) : CarrierParams := s.mgmt.params.carriers.get c

/-- The tick count. -/
def State.now (s : State) : Tick := s.tracker.tick

end Sys2Proof.Machine
end

