-- ==== Sys2Proof/Machine/Arith.lean ====
section
/-! DEFINITION. Tick and sub-tick arithmetic, the slot grid, the launch arithmetic and the output words (file 02). -/

namespace Sys2Proof.Machine

/-! ### Ticks and sub-ticks (R1) -/

/-- The tick of a sub-tick value: division by 65536, rounding toward minus infinity (R1). -/
def fxTick (t : Fx) : Tick := BitVec.ofNat 56 (t.toNat / 65536)

/-- A tick as a sub-tick value (R1). -/
def tickFx (t : Tick) : Fx := BitVec.ofNat 72 (t.toNat * 65536)

/-- `t` moved by `n` ticks later. -/
def tickAdd (t : Tick) (n : Nat) : Tick := t + BitVec.ofNat 56 n

/-- `t` moved by `n` ticks earlier. -/
def tickSub (t : Tick) (n : Nat) : Tick := t - BitVec.ofNat 56 n

/-- A sub-tick value moved by a signed number of sub-ticks. -/
def fxAdd (t : Fx) (d : Int) : Fx := t + BitVec.ofInt 72 d

/-- Ticks from `x` to `t` (R5, R98). -/
def tickSpan (t x : Tick) : Nat := (t - x).toNat

/-- `t` is at or after `x`. DEDUCED (log 4), unsafe beyond 2^55 ticks: instants are compared on the 2^56 circle, as R46
compares epoch numbers on the 2^32 circle. -/
def tickReached (t x : Tick) : Bool := tickSpan t x < 2 ^ 55

/-- Sub-tick `t` is later than `x`, on the 2^72 circle (log 4). -/
def fxAfter (t x : Fx) : Bool := t ≠ x && (t - x).toNat < 2 ^ 71

/-- Epoch number `x` is ahead of `y` on the 32-bit circle (R46). -/
def epochAhead (x y : EpochNo) : Bool := let d := (x - y).toNat; 1 ≤ d && d ≤ 2147483647

/-- Epoch number `x` is at or behind `y` on the 32-bit circle (R46). -/
def epochAtOrBehind (x y : EpochNo) : Bool := let d := (x - y).toNat; d == 0 || 2147483648 ≤ d

/-- The cycle of an epoch number (section 1.6: epoch number div 4). -/
def cycleOf (e : EpochNo) : CycleNo := BitVec.ofNat 30 (e.toNat / 4)

/-- The first epoch of a cycle: epoch 4n. -/
def firstEpoch (n : CycleNo) : EpochNo := BitVec.ofNat 32 (4 * n.toNat)

/-- An epoch number is the first of a cycle. -/
def startsCycle (e : EpochNo) : Bool := e.toNat % 4 == 0

/-- The smallest multiple of 4 at or after `e`, modulo 2^32 (R46). -/
def nextCycleStart (e : EpochNo) : EpochNo := BitVec.ofNat 32 ((e.toNat + 3) / 4 * 4)

/-! ### Rounding and clamping (00 section 5.4) -/

/-- `n / d` to the nearest integer, halves away from zero. -/
def roundAway (n : Int) (d : Nat) : Int := n.sign * (((2 * n.natAbs + d) / (2 * d) : Nat) : Int)

/-- `n / d` to the nearest integer, halves up, for a natural number `n`. -/
def roundUp (n d : Nat) : Nat := (2 * n + d) / (2 * d)

/-- A value outside `lo`–`hi` is replaced by the nearer end. -/
def clampInt (lo hi x : Int) : Int := if x < lo then lo else if hi < x then hi else x

/-- A value outside `lo`–`hi` is replaced by the nearer end. -/
def clampNat (lo hi x : Nat) : Nat := if x < lo then lo else if hi < x then hi else x

/-! ### The slot grid (R22 to R25) -/

/-- The slot length Sfx of an epoch, in sub-ticks (R24). -/
def slotLength (g : Grid) : Nat := g.sum8 * 1024

/-- SlotStart of position `p` of the epoch of grid `g` (R24). -/
def gridStart (g : Grid) (p : Nat) : Fx := fxAdd g.pred (p * slotLength g : Nat)

/-- SlotStart of a slot. -/
def slotStart (sl : SlotRef) : Fx := gridStart sl.grid sl.pos.val

/-- The decision instant for a slot start and a lead in ms: the start's tick, less the lead, less 2.5 ms (R86). -/
def decisionInstant (start : Fx) (lead : Nat) : Tick :=
  tickSub (fxTick start) (lead * Config.msTicks + Config.decisionMargin)

/-- The slot at position `p` of epoch `e` with grid `g` (R22). -/
def slotAt (e : EpochNo) (p : Fin 8) (g : Grid) : SlotRef :=
  { cycle := cycleOf e, index := Fin.ofNat 32 (8 * (e.toNat % 4) + p.val), pos := p, grid := g }

/-- The tick at which a slot ends: the start of the next slot of the grid (R24). After position 7 the next slot's start is
the prediction of the next epoch, which is the current grid's once that epoch has started. -/
def slotEndTick (t : Tracker) (sl : SlotRef) : Option Tick :=
  if sl.pos.val < 7 then some (fxTick (gridStart sl.grid (sl.pos.val + 1)))
  else if t.current = some sl.grid then t.next.map fun g => fxTick g.pred
  else t.current.map fun g => fxTick g.pred

/-- The tick count lies in the slot's span, from its SlotStart to the next slot's start (R101). -/
def inSpan (t : Tracker) (sl : SlotRef) : Bool :=
  tickReached t.tick (fxTick (slotStart sl)) &&
    (match slotEndTick t sl with
     | some e => !tickReached t.tick e
     | none => true)

/-- Symbols per second of a class (R25). -/
def RateClass.perSecond : RateClass → Nat
  | .a => 1000
  | .b => 2000
  | .c => 4000

/-- Symbol positions per slot of a class (R25). -/
def RateClass.symbols : RateClass → Nat
  | .a => 120
  | .b => 240
  | .c => 480

/-- Blocks per slot, P, of a class (R25). -/
def RateClass.blocks : RateClass → Nat
  | .a => 3
  | .b => 6
  | .c => 12

/-! ### The launch offset and the step (R26 to R31) -/

/-- L before the clamp: O − D (R26). -/
def rawOffset (groupOffset : Int) (delay : Nat) : Int := groupOffset - delay

/-- L, clamped to ±2,500,000 ns (R27). -/
def launchOffset (raw : Int) : Int := clampInt (-Config.offsetLimit) Config.offsetLimit raw

/-- The clamp of R27 changed the offset. -/
def offsetClamped (raw : Int) : Bool := launchOffset raw ≠ raw

/-- Lfx = L × 65536 / 100, halves away from zero (R28). -/
def offsetFx (l : Int) : Int := roundAway (l * 65536) 100

/-- Tfx = Sum8 × 8192 / R, halves up (R29). -/
def symbolStep (sum8 : Nat) (perSecond : Nat) : Nat := roundUp (sum8 * 8192) perSecond

/-- The instant of symbol position `k` of a run (R30, R31). -/
def Run.instant (r : Run) (k : Nat) : Fx := fxAdd r.launch (k * r.tfx : Nat)

/-- The payload end of a run, as a tick (R31). -/
def Run.payloadEnd (r : Run) : Tick := fxTick (r.instant r.symbols)

/-! ### Output words (R35 to R37) -/

/-- The word of level `v` before the clamp: round(v × G / 8) + C (R36). -/
def rawWord (w : WordSet) (v : Int) : Int := roundAway (v * w.gain.toNat) 8 + w.centre

/-- The word of level `v` (R36). -/
def wordOf (w : WordSet) (v : Int) : Int := clampInt (-32768) 32767 (rawWord w v)

/-- The clamp of R37 changed the word of level `v`. -/
def wordClamped (w : WordSet) (v : Int) : Bool := wordOf w v ≠ rawWord w v

/-- The level of a symbol code (R35). -/
def levelOf (m : Modulation) (code : BitVec 2) : Int :=
  match m with
  | .level4 => if code = 0 then -3 else if code = 1 then -1 else if code = 2 then 1 else 3
  | .level2 => if code.msb then 3 else -3

/-- The level of position `k` of a marker burst (R135). -/
def markerLevel (k : Nat) : Int := if k % 2 = 0 then 3 else -3

/-- The symbol code at place `j` of a store block (section 9.6.1: symbol 0 in the highest bits). -/
def codeAt (codes : BitVec 80) (j : Nat) : BitVec 2 := BitVec.ofNat 2 (codes.toNat / 4 ^ (39 - j))

/-- The batch id a run names, none for a marker run (R100). -/
def Run.batchId (r : Run) : Option BatchId :=
  match r.content with
  | .batch id _ _ _ _ => some id
  | .marker => none

end Sys2Proof.Machine
end

