-- ==== Sys2Proof/Machine/Operands.lean ====
section
/-! DEFINITION. Octets: the check, the fields of frame bodies, and the octet forms of state codes (file 09, R165). -/

namespace Sys2Proof.Machine

/-! ### Fields (R154: most significant octet first) -/

/-- The number a list of octets carries. -/
def beNat (bs : List Byte) : Nat := bs.foldl (fun acc b => acc * 256 + b.toNat) 0

/-- The unsigned field of `len` octets at offset `off` of a body. -/
def field (body : List Byte) (off len : Nat) : Nat := beNat ((body.drop off).take len)

/-- The signed 32-bit field at offset `off`. -/
def signedField (body : List Byte) (off : Nat) : Int := (BitVec.ofNat 32 (field body off 4)).toInt

/-- `n` as `len` octets. -/
def octets : Nat → Nat → List Byte
  | 0, _ => []
  | len + 1, n => BitVec.ofNat 8 (n / 256 ^ len) :: octets len n

/-- A signed number as `len` octets, two's complement. -/
def signedOctets (len : Nat) (x : Int) : List Byte := octets len (BitVec.ofInt (8 * len) x).toNat

/-- A flag as one octet. -/
def boolOctet (b : Bool) : List Byte := [if b then 1 else 0]

/-- An optional value: a presence octet and the value, carried as 0 when absent (R165). -/
def optOctets (len : Nat) (x : Option Nat) : List Byte :=
  match x with
  | some n => 1 :: octets len n
  | none => 0 :: octets len 0

/-- A flag octet: zero means clear and any other value means set (R161). -/
def flagSet (n : Nat) : Bool := n != 0

/-- A carrier octet: 1 to 4, or none (R43, R63). -/
def carrierOf (n : Nat) : Option Carrier :=
  match n with
  | 1 => some .c1
  | 2 => some .c2
  | 3 => some .c3
  | 4 => some .c4
  | _ => none

/-- The number of a carrier, 1 to 4. -/
def carrierNumber : Carrier → Nat
  | .c1 => 1
  | .c2 => 2
  | .c3 => 3
  | .c4 => 4

/-- A carrier's place among the four, 0 to 3. -/
def carrierPlace (c : Carrier) : Nat := carrierNumber c - 1

/-! ### The check (R154) -/

/-- One bit of the check: generator x^16 + x^12 + x^5 + 1, most significant bit first. -/
def crcShift (r : BitVec 16) : BitVec 16 := if r.msb then (r <<< 1) ^^^ 0x1021 else r <<< 1

/-- `n` bits of the check. -/
def crcShifts : Nat → BitVec 16 → BitVec 16
  | 0, r => r
  | n + 1, r => crcShifts n (crcShift r)

/-- One octet of the check. -/
def crcOctet (r : BitVec 16) (b : Byte) : BitVec 16 := crcShifts 8 (r ^^^ (BitVec.ofNat 16 (b.toNat * 256)))

/-- The check over a list of octets: preset FFFFh, no inversion of the result. -/
def crc (bs : List Byte) : BitVec 16 := bs.foldl crcOctet 0xFFFF

/-- The octets of a frame the check covers: destination and source, kind, tag, body (R153, section 9.6). -/
def checkedOctets (f : Frame) : List Byte :=
  octets 3 (f.dest.toNat * 4096 + f.src.toNat) ++ f.kind :: f.tag :: f.body

/-- The frame's check octets match (R153). -/
def goodFrame (f : Frame) : Bool := f.check = crc (checkedOctets f)

/-- A frame with its check computed (R154). -/
def sealFrame (dest src : BitVec 12) (kind tag : Byte) (body : List Byte) : Frame :=
  let f : Frame := { dest := dest, src := src, kind := kind, tag := tag, body := body, check := 0 }
  { f with check := crc (checkedOctets f) }

/-! ### Kinds and codes (section 9.6) -/

def kindTimeMark : Byte := 0x01
def kindBatchHeader : Byte := 0x02
def kindBatchBlock : Byte := 0x03
def kindCancel : Byte := 0x04
def kindLoadSite : Byte := 0x20
def kindEnableService : Byte := 0x21
def kindRestart : Byte := 0x22
def kindStatus : Byte := 0x23
def kindCounters : Byte := 0x24
def kindClearAlarms : Byte := 0x25
def kindLoadAlign : Byte := 0x28
def kindCommitAlign : Byte := 0x29
def kindReadAlign : Byte := 0x2A
def kindEpochSet : Byte := 0x2C
def kindSchedule : Byte := 0x2D
def kindStandby : Byte := 0x30
def kindMarkerLoad : Byte := 0x31
def kindMarkerClear : Byte := 0x32
def kindProbeStart : Byte := 0x34
def kindProbeAbort : Byte := 0x35
def kindProbeResult : Byte := 0x36
def kindGuardTest : Byte := 0x38
def kindReply : Byte := 0x80
def kindCycleReport : Byte := 0x81

/-- The reply codes (section 9.6.3). -/
inductive ReplyCode where
  | ok | clamped | badArgument | notInService | refusedState | lateCommit | stagedLocked | measureBusy | carrierBusy
  | carrierStandby | markerBusy | noopPending | noTiming | unknownRequest
  deriving DecidableEq, Repr

/-- The octet of a reply code (section 9.6.3). -/
def replyOctet : ReplyCode → Byte
  | .ok => 0x00
  | .clamped => 0x01
  | .badArgument => 0x02
  | .notInService => 0x03
  | .refusedState => 0x04
  | .lateCommit => 0x05
  | .stagedLocked => 0x06
  | .measureBusy => 0x07
  | .carrierBusy => 0x08
  | .carrierStandby => 0x09
  | .markerBusy => 0x0A
  | .noopPending => 0x0B
  | .noTiming => 0x0C
  | .unknownRequest => 0x0D

/-- The outcome codes, numbered in the order of their precedence (R102, section 9.6.3). -/
def codeNumber : OutcomeCode → Nat
  | .quiet => 0x01
  | .markerGap => 0x02
  | .cancelled => 0x03
  | .displaced => 0x04
  | .overlap => 0x06
  | .incomplete => 0x07
  | .malformed => 0x08
  | .notInGroup => 0x09
  | .waking => 0x0A
  | .measuring => 0x0B
  | .guardFault => 0x0C
  | .noTiming => 0x0D
  | .markerSent => 0x0E
  | .sent => 0x0F
  | .cut => 0x10

/-- State codes: the position of the state in its list as the manual names it (R165). -/
def refOctet : RefState → Nat
  | .noClock => 0
  | .acquiring => 1
  | .locked => 2
  | .holdover => 3

def keyOctet : KeyState → Nat
  | .released => 0
  | .pending _ => 1
  | .keyed => 2
  | .tail _ => 3
  | .probe => 4

def powerOctet : PowerState → Nat
  | .active => 0
  | .awakening _ => 1
  | .standby => 2

def serviceOctet : ServiceState → Nat
  | .unconfigured => 0
  | .configured => 1
  | .serving => 2

def causeOctet : ResetCause → Nat
  | .powerOn => 0
  | .resetPin => 1
  | .restart => 2

def phaseOctet : ProbePhase → Nat
  | .idle => 0
  | .loadSettle => 1
  | .keyUp => 2
  | .probe => 3
  | .keyDown => 4
  | .loadReturn => 5
  | .observe => 6

def modeOctet : ProbeMode → Nat
  | .path => 0
  | .quiet => 1

def batchStateOctet : BatchState → Nat
  | .pending => 0
  | .complete => 1
  | .onAir => 2
  | .suspended => 3

def programOctet : Program → Nat
  | .start _ => 1
  | .cont _ => 2
  | .resume _ => 3
  | .markerOn => 4
  | .markerGap => 5
  | .quiet => 6

/-- The kind of a pending number: 0 none, 1 MARK_SET, 2 ADOPT, 3 FORCED (R170). -/
def pendingKindOctet : Option PendingNumber → Nat
  | none => 0
  | some p =>
    match p.kind with
    | .markSet => 1
    | .adopt => 2
    | .forced => 3

/-- The outcome of a probe record: 0 none, 1 VALID, 2 INVALID, 3 PASS, 4 FAIL, 5 ABORTED (R165). -/
def probeOutcomeOctet : ProbeOutcome → Nat
  | .valid => 1
  | .invalid => 2
  | .pass => 3
  | .fail => 4
  | .aborted => 5

/-- A sample: 0 not yet taken, FFFFh MISSED (R165). -/
def sampleNumber : Sample → Nat
  | .notTaken => 0
  | .missed => 0xFFFF
  | .delay n => n

/-- A rate class octet (section 9.6.1). -/
def rateOf (n : Nat) : Option RateClass :=
  match n with
  | 1 => some .a
  | 2 => some .b
  | 3 => some .c
  | _ => none

/-- A modulation octet (section 9.6.1). -/
def modulationOf (n : Nat) : Option Modulation :=
  match n with
  | 0 => some .level4
  | 1 => some .level2
  | _ => none

/-- A number as a `Fin`, if it is in range. -/
def finOf (n bound : Nat) : Option (Fin bound) := if h : n < bound then some ⟨n, h⟩ else none

/-- The bits of a list of octets, bit 7 of the first octet first (section 9.6.2, MARKER_LOAD). -/
def bitsOf (bs : List Byte) : List Bool :=
  bs.flatMap fun b => [b.getLsbD 7, b.getLsbD 6, b.getLsbD 5, b.getLsbD 4, b.getLsbD 3, b.getLsbD 2, b.getLsbD 1, b.getLsbD 0]

/-- Up to 64 bits as 8 octets, the first in bit 7 of the first octet (R170). DESIGN CHOICE (log 38): the places past the last
bit are 0. -/
def markerOctets (bits : List Bool) : List Byte :=
  octets 8 ((bits ++ List.replicate (64 - bits.length) false).foldl (fun acc b => 2 * acc + (if b then 1 else 0)) 0)

end Sys2Proof.Machine
end

