-- ==== Sys2Proof/Machine/Flags.lean ====
section
/-! DEFINITION. Alarms and attention, counters, the STORE_LOW flag and the test marker (R37, R81, R84, R172, R174). -/

namespace Sys2Proof.Machine

/-! ### Alarms (section 9.6.2, R172) -/

/-- The eleven alarm kinds. -/
inductive Alarm where
  | clockLost | holdover | holdoverExpired | epochMismatch | epochRenumbered
  | marginLow (c : Carrier) | noCarrier (c : Carrier) | stuckCarrier (c : Carrier) | storeGuard (c : Carrier)
  | offsetClamped (c : Carrier) | markerFault (c : Carrier)
  deriving DecidableEq, Repr

/-- The alarm's bit in an alarm set (section 9.6.2). -/
def Alarm.bit : Alarm → Nat
  | .clockLost => 0
  | .holdover => 1
  | .holdoverExpired => 2
  | .epochMismatch => 3
  | .epochRenumbered => 4
  | .marginLow c => 8 + 6 * carrierPlace c
  | .noCarrier c => 9 + 6 * carrierPlace c
  | .stuckCarrier c => 10 + 6 * carrierPlace c
  | .storeGuard c => 11 + 6 * carrierPlace c
  | .offsetClamped c => 12 + 6 * carrierPlace c
  | .markerFault c => 13 + 6 * carrierPlace c

/-- The alarm set that holds this alarm alone. -/
def Alarm.mask (a : Alarm) : BitVec 32 := BitVec.ofNat 32 (2 ^ a.bit)

/-- Bits 5 to 7 of an alarm set are not used (section 9.6.2). -/
def usedAlarms : BitVec 32 := 0xFFFFFF1F

/-- The alarm is latched. -/
def latched (a : Alarm) (s : State) : Bool := (s.mgmt.alarms &&& a.mask) != 0

/-- An alarm reported by its owner becomes latched (R172). -/
def latch (a : Alarm) (s : State) : State := s.setMgmt { s.mgmt with alarms := s.mgmt.alarms ||| a.mask }

/-- `latch` under a condition. -/
def latchIf (b : Bool) (a : Alarm) (s : State) : State := if b then latch a s else s

/-- The alarms of a set are made clear, bits 5 to 7 ignored (R173). -/
def clearAlarmSet (set : BitVec 32) (s : State) : State :=
  s.setMgmt { s.mgmt with alarms := s.mgmt.alarms &&& ~~~(set &&& usedAlarms) }

/-- The attention flag: an alarm that is not masked is latched (R159, R172). -/
def attention (s : State) : Bool := (s.mgmt.alarms &&& ~~~s.mgmt.params.mask) != 0

/-- STORE_GUARD(c) latches for a real fault: the test marker is clear (R83, R84). -/
def latchGuardReal (c : Carrier) (s : State) : State :=
  latch (.storeGuard c) (s.modCar c fun k => { k with guardMarker := false })

/-- STORE_GUARD(c) latches for a test fault: the marker is set, but an alarm already latched with its marker clear keeps it
clear (R84). -/
def latchGuardTest (c : Carrier) (s : State) : State :=
  latch (.storeGuard c) (s.modCar c fun k => { k with guardMarker := k.guardMarker || !latched (.storeGuard c) s })

/-- A cleared STORE_GUARD(c) loses its test marker (R173). -/
def clearMarkers (set : BitVec 32) (s : State) : State :=
  s.setCarriers (s.carriers.map fun c k =>
    { k with guardMarker := k.guardMarker && (set &&& (Alarm.storeGuard c).mask) == 0 })

/-! ### Counters (R174) -/

/-- A counter counts up by 1 and holds at 65535 (R174). -/
def satInc (x : BitVec 16) : BitVec 16 := if x = 0xFFFF then x else x + 1

/-- One of the part-wide counters changed. -/
def modPart (f : PartCounters → PartCounters) (s : State) : State :=
  s.setMgmt { s.mgmt with counters := f s.mgmt.counters }

/-- One of carrier `c`'s counters changed. -/
def modCounters (c : Carrier) (f : CarrierCounters → CarrierCounters) (s : State) : State :=
  s.modCar c fun k => { k with counters := f k.counters }

def countBadFrame : State → State := modPart fun k => { k with badFrames := satInc k.badFrames }
def countOwnDrop : State → State := modPart fun k => { k with ownDrops := satInc k.ownDrops }
def countRelayDrop : State → State := modPart fun k => { k with relayDrops := satInc k.relayDrops }
def countMarkRejected : State → State := modPart fun k => { k with marksRejected := satInc k.marksRejected }
def countStrayPulse : State → State := modPart fun k => { k with strayPulses := satInc k.strayPulses }
def countRequest : State → State := modPart fun k => { k with requests := satInc k.requests }

/-- The place of a traffic kind in the COUNTERS reply (R174). -/
def TrafficKind.place : TrafficKind → Fin 4
  | .timeMark => 0
  | .batchHeader => 1
  | .batchBlock => 2
  | .cancel => 3

/-- The taken count of a traffic kind (R157). -/
def countTaken (k : TrafficKind) : State → State :=
  modPart fun p => { p with taken := p.taken.set k.place (satInc (p.taken.get k.place)) k.place.isLt }

/-- The unmatched count of a traffic kind (R157). -/
def countUnmatched (k : TrafficKind) : State → State :=
  modPart fun p => { p with unmatched := p.unmatched.set k.place (satInc (p.unmatched.get k.place)) k.place.isLt }

/-- The place of a refusal reason (R174: the order of the table). -/
def RefuseReason.place : RefuseReason → Fin 12
  | .notServing => 0
  | .noTiming => 1
  | .carrierOff => 2
  | .badField => 3
  | .notInGroup => 4
  | .tooEarly => 5
  | .late => 6
  | .span => 7
  | .slotReserved => 8
  | .duplicate => 9
  | .tableFull => 10
  | .claimed => 11

/-- The REFUSED counter of a carrier for a reason (R63). -/
def countRefused (c : Carrier) (r : RefuseReason) : State → State :=
  modCounters c fun k => { k with refused := k.refused.set r.place (satInc (k.refused.get r.place)) r.place.isLt }

def countSent (c : Carrier) : State → State := modCounters c fun k => { k with sent := satInc k.sent }
def countDropped (c : Carrier) : State → State := modCounters c fun k => { k with dropped := satInc k.dropped }
def countDiscard (c : Carrier) : State → State := modCounters c fun k => { k with blockDiscards := satInc k.blockDiscards }
def countClampedWord (c : Carrier) : State → State := modCounters c fun k => { k with clampedWords := satInc k.clampedWords }
def countLowMargin (c : Carrier) : State → State := modCounters c fun k => { k with lowMargins := satInc k.lowMargins }

/-- Every counter is set to 0 (R174). -/
def clearCounters (s : State) : State :=
  let s := modPart (fun _ => PartCounters.reset) s
  s.setCarriers (s.carriers.map fun _ k => { k with counters := CarrierCounters.reset })

/-! ### STORE_LOW (R81) -/

/-- STORE_LOW for a free count, by the thresholds and the value it last took (R81). -/
def storeLowFlag (low high count : Nat) (was : Bool) : Bool :=
  if count < low then true else if high ≤ count then false else was

/-- STORE_LOW evaluated (R81). -/
def evalStoreLow (s : State) : State :=
  s.setStore { s.store with
    low := storeLowFlag s.mgmt.params.storeLow s.mgmt.params.storeHigh s.store.freeCount s.store.low }

end Sys2Proof.Machine
end

