-- ==== Sys2Proof/Machine/Ops.lean ====
section
/-! DEFINITION. The named operations the commands share: the Symbol Store, the Batch Table and claim maps, codes and slots,
the end of a batch, the immediate release, the flush, key and word lines, and the own queue. -/

namespace Sys2Proof.Machine

/-! ### Timing and the alignment table -/

/-- Timing is available: LOCKED or HOLDOVER, and the epoch number set (R16). -/
def timingAvailable (s : State) : Bool :=
  (s.tracker.ref = .locked || s.tracker.ref = .holdover) && s.tracker.epoch.isSome

/-- Carrier `c`'s record in the active bank. -/
def activeRecord (c : Carrier) (s : State) : CarrierRecord := s.align.active.records.get c

/-- The group row of carrier `c` in the active bank (R52, R54). -/
def activeRow (c : Carrier) (g : Fin 16) (s : State) : GroupRow := (activeRecord c s).rows.get g

/-- The word set that carrier `c`'s record of the active bank gives (R36). -/
def activeWords (c : Carrier) (s : State) : WordSet :=
  { gain := (activeRecord c s).gain, centre := (activeRecord c s).centre }

/-- The centre word of a word set (R36: round(0) is 0, so it is C). -/
def centreWord (w : WordSet) : Int := wordOf w 0

/-- The word of a carrier whose key is released: C of its record in the active bank (R38). -/
def restWord (c : Carrier) (s : State) : Int := centreWord (activeWords c s)

/-! ### The Symbol Store (R80) -/

/-- What an unlisted store block is: FREE, with codes 0 (log 8). -/
def blankBlock : StoreBlock := { tag := .free, codes := 0 }

/-- The block at number `n`. -/
def cellsRead : List (Nat × StoreBlock) → Nat → StoreBlock
  | [], _ => blankBlock
  | (m, b) :: rest, n => if m = n then b else cellsRead rest n

/-- Block `n` written, in canonical form. -/
def cellsWrite : List (Nat × StoreBlock) → Nat → StoreBlock → List (Nat × StoreBlock)
  | [], n, b => if b = blankBlock then [] else [(n, b)]
  | (m, x) :: rest, n, b =>
    if n < m then (if b = blankBlock then (m, x) :: rest else (n, b) :: (m, x) :: rest)
    else if n = m then (if b = blankBlock then rest else (n, b) :: rest)
    else (m, x) :: cellsWrite rest n b

/-- The canonical form: numbers strictly rising and below 2048, no entry blank. -/
def cellsWf : List (Nat × StoreBlock) → Bool
  | [] => true
  | (n, b) :: rest => n < Config.storeSize && b ≠ blankBlock && rest.all (fun x => n < x.1) && cellsWf rest

/-- The store is in canonical form. -/
def Store.wf (st : Store) : Bool := cellsWf st.cells

/-- The lowest-numbered FREE block at or after `n` (R80). -/
def lowestFree : List (Nat × StoreBlock) → Nat → Option Nat
  | [], n => if n < Config.storeSize then some n else none
  | (m, b) :: rest, n =>
    if n < m then (if n < Config.storeSize then some n else none)
    else if b.tag = .free then some m
    else lowestFree rest (m + 1)

/-- Store block `n`. -/
def readBlock (n : Nat) (s : State) : StoreBlock := cellsRead s.store.cells n

/-- Store block `n` written; there is no block at or above 2048. -/
def writeBlock (n : Nat) (b : StoreBlock) (s : State) : State :=
  if n < Config.storeSize then s.setStore { s.store with cells := cellsWrite s.store.cells n b } else s

/-- The tag of block `n` written, its codes kept. -/
def writeTag (n : Nat) (t : BlockTag) (s : State) : State := writeBlock n { readBlock n s with tag := t } s

/-- The lowest-numbered FREE block is tagged HELD and takes the codes; the free count decreases by 1 (R70, R80, R81). -/
def allocate (n : Nat) (id : BatchId) (index : Nat) (codes : BitVec 80) (s : State) : State :=
  let s := writeBlock n { tag := .held id index, codes := codes } s
  evalStoreLow (s.setStore { s.store with freeCount := s.store.freeCount - 1 })

/-- Block `n` is tagged FREE and the free count increases by 1 (R80, R81). -/
def freeBlock (n : Nat) (s : State) : State :=
  let s := writeTag n .free s
  evalStoreLow (s.setStore { s.store with freeCount := s.store.freeCount + 1 })

/-- Every block of a block list is freed (R60, R80). -/
def freeBlocks : List (Option Nat) → State → State
  | [], s => s
  | none :: rest, s => freeBlocks rest s
  | some n :: rest, s => freeBlocks rest (freeBlock n s)

/-! ### The Batch Table (R58) -/

/-- The record with this id. -/
def findBatch (id : BatchId) (s : State) : Option Batch := s.batches.find? (fun b => b.id = id)

/-- A record put into its place by ascending id. -/
def insertRecord (b : Batch) : List Batch → List Batch
  | [] => [b]
  | x :: rest => if b.id.toNat < x.id.toNat then b :: x :: rest else x :: insertRecord b rest

/-- A record added (R69). -/
def addBatch (b : Batch) (s : State) : State := s.setBatches (insertRecord b s.batches)

/-- The record with this id changed. -/
def modBatch (id : BatchId) (f : Batch → Batch) (s : State) : State :=
  s.setBatches (s.batches.map fun b => if b.id = id then f b else b)

/-- The record with this id leaves the table (R60). -/
def removeBatch (id : BatchId) (s : State) : State := s.setBatches (s.batches.filter fun b => b.id ≠ id)

/-- Carrier `c` has a record in the table. -/
def hasRecord (c : Carrier) (s : State) : Bool := s.batches.any fun b => b.carrier = c

/-- Blocks remain: next block is at or below the last index (R95). -/
def Batch.remaining (b : Batch) : Bool :=
  match b.last with
  | some l => b.nextBlock ≤ l.index
  | none => false

/-- The number of remaining blocks (R95). -/
def Batch.remainingCount (b : Batch) : Nat :=
  match b.last with
  | some l => l.index + 1 - b.nextBlock
  | none => 0

/-- Last index known, and every position from 0 to it holds a block (R73). -/
def Batch.filled (b : Batch) : Bool :=
  match b.last with
  | some l => (List.range (l.index + 1)).all fun i => (b.blocks.getD i none).isSome
  | none => false

/-- The reasons a batch ends for (R60). -/
inductive EndReason where
  | sent | cut | replaced | cancelled | incomplete | malformed | notInGroup | overlap | measuring | waking | displaced
  | noTiming | epochRenumbered
  deriving DecidableEq, Repr

/-! ### Slot codes (R100 to R102) -/

/-- A code assigned later replaces the held one only if it stands strictly higher (R102). -/
def mergeCode (held : Option SlotOutcome) (new : SlotOutcome) : Option SlotOutcome :=
  match held with
  | none => some new
  | some o => if codeNumber o.code < codeNumber new.code then some new else some o

/-- A code assigned to the open slots a test picks. -/
def assignWhere (p : SlotRef → Bool) (o : SlotOutcome) (slots : List OpenSlot) : List OpenSlot :=
  slots.map fun x => if p x.slot then { x with held := mergeCode x.held o } else x

/-- A code assigned to a slot. A code for a slot 31 already recorded goes to slot 0 of the next cycle (R102). -/
def assignIn (sl : SlotRef) (o : SlotOutcome) (slots : List OpenSlot) : List OpenSlot :=
  if slots.any (fun x => x.slot = sl) then assignWhere (fun r => r = sl) o slots
  else if sl.index = 31 then assignWhere (fun r => r.index = 0 && r.cycle = sl.cycle + 1) o slots
  else slots

/-- The Scheduler of carrier `c` changed. -/
def modSched (c : Carrier) (f : Scheduler → Scheduler) (s : State) : State :=
  s.modCar c fun k => { k with sched := f k.sched }

/-- The Launch Timer of carrier `c` changed. -/
def modTimer (c : Carrier) (f : LaunchTimer → LaunchTimer) (s : State) : State :=
  s.modCar c fun k => { k with timer := f k.timer }

/-- A code assigned to a slot of carrier `c` (R100). -/
def assignCode (c : Carrier) (sl : SlotRef) (code : OutcomeCode) (id : Option BatchId) (s : State) : State :=
  modSched c (fun x => { x with openSlots := assignIn sl { code := code, id := id } x.openSlots }) s

/-- The runs of a Launch Timer, latest first: armed, active, finishing. -/
def LaunchTimer.runs (t : LaunchTimer) : List Run := t.armed.toList ++ t.active.toList ++ t.finishing.toList

/-- A run names the batch, which has not ended while it emits (R97, R101). -/
def Run.names (r : Run) (id : BatchId) : Bool := r.batchId = some id && !r.ended

/-- The tick count still lies in the span of a slot 31 that an early epoch start has recorded (R102, log 35). -/
def inClosedSpan (now : Tick) (k : ClosedSlot) : Bool :=
  tickReached now (fxTick (slotStart k.slot)) && !tickReached now k.spanEnd

/-- The slots that a code for the tick count's span reaches: the slot in whose span the tick count lies (R101); slot 0 of the
next cycle, for a slot 31 already recorded (R102). -/
def spanTest (t : Tracker) (x : Scheduler) : SlotRef → Bool :=
  match x.closed with
  | some k =>
    if inClosedSpan t.tick k then fun sl => sl.index = 0 && sl.cycle = k.slot.cycle + 1 else inSpan t
  | none => inSpan t

/-- A code for the slot in whose span the tick count lies, if one is timed (R101, R102). -/
def assignSpan (t : Tracker) (o : SlotOutcome) (x : Scheduler) : List OpenSlot := assignWhere (spanTest t x) o x.openSlots

/-- An ending that no decision step, run or gate assigns: to the slot of every open run that names the batch; if there is
none, to the slot in whose span it falls; if no slot is timed, to none (R101). -/
def assignByRun (c : Carrier) (code : OutcomeCode) (id : BatchId) (s : State) : State :=
  let slots := ((s.car c).timer.runs.filter fun r => r.names id).map Run.slot
  let o : SlotOutcome := { code := code, id := some id }
  match slots with
  | [] => modSched c (fun x => { x with openSlots := assignSpan s.tracker o x }) s
  | _ => modSched c (fun x => { x with openSlots := slots.foldl (fun os sl => assignIn sl o os) x.openSlots }) s

/-- A slot written into the outcome array: only under its own cycle's label, which an unlabelled array takes first, and never
over an entry once written (R102). -/
def OutcomeArray.record (a : OutcomeArray) (o : OpenSlot) : OutcomeArray :=
  if a.label.getD o.slot.cycle = o.slot.cycle then
    { label := some o.slot.cycle
      entries := a.entries.set o.slot.index ((a.entries.get o.slot.index).or o.held) o.slot.index.isLt }
  else a

/-- The open slots that a test picks are recorded and leave the open slots (R102). -/
def recordSlots (c : Carrier) (p : OpenSlot → Bool) (s : State) : State :=
  modSched c (fun x =>
    { x with outcomes := (x.openSlots.filter p).foldl OutcomeArray.record x.outcomes
             openSlots := x.openSlots.filter fun o => !p o }) s

/-! ### The end of a batch (R60) -/

/-- A batch's id removed from a claim map (R61). -/
def clearClaim (id : BatchId) (m : ClaimMap) : ClaimMap := m.map fun e => if e = some id then none else e

/-- A run of a batch that ends is marked: it keeps its ticks and emits centre (R97). -/
def markEnded (id : BatchId) (r : Run) : Run := if r.batchId = some id then { r with ended := true } else r

/-- What a batch's end takes from its carrier: its claim, its place on the stack, on air or incoming; its runs are marked
(R60, R94, R96, R97). -/
def dropFromCarrier (id : BatchId) (k : CarrierState) : CarrierState :=
  { k with
    maps := { k.maps with current := clearClaim id k.maps.current, next := clearClaim id k.maps.next }
    timer := { k.timer with
      active := k.timer.active.map (markEnded id)
      armed := k.timer.armed.map (markEnded id)
      finishing := k.timer.finishing.map (markEnded id) }
    sched := { k.sched with
      onAir := if k.sched.onAir = some id then none else k.sched.onAir
      stop := if k.sched.onAir = some id then none else k.sched.stop
      incoming := if k.sched.incoming = some id then none else k.sched.incoming
      stack := k.sched.stack.filter fun x => x ≠ id } }

/-- SENT counts the reason SENT, DROPPED every other (R60). -/
def countEnd (c : Carrier) (why : EndReason) : State → State := if why = .sent then countSent c else countDropped c

/-- A batch ends: its claim is removed, its blocks are freed, its record leaves the table and a counter rises (R60). -/
def endBatch (id : BatchId) (why : EndReason) (s : State) : State :=
  match findBatch id s with
  | none => s
  | some b => countEnd b.carrier why ((removeBatch id (freeBlocks b.blocks s)).modCar b.carrier (dropFromCarrier id))

/-- The hand-over of an incoming batch: with no batch on air it becomes ON_AIR, and leaves the stack if it stands there
(R96). -/
def handOver (c : Carrier) (s : State) : State :=
  match (s.car c).sched.onAir, (s.car c).sched.incoming with
  | none, some id =>
    modBatch id (fun b => { b with state := .onAir })
      (modSched c (fun x => { x with
        onAir := some id, stop := none, incoming := none, stack := x.stack.filter fun y => y ≠ id }) s)
  | _, _ => s

/-! ### Claim maps and the current cycle (R61, R62) -/

/-- A slot of carrier `c` is settled: its start is not after the latest that was decided or passed over (R86, log 17). -/
def startSettled (c : Carrier) (start : Fx) (s : State) : Bool :=
  match (s.car c).sched.settled with
  | some t => !fxAfter start t
  | none => false

/-- A slot start that is settled, or whose decision instant is at or before the tick (R66, R86). -/
def startPassed (c : Carrier) (start : Fx) (s : State) : Bool :=
  tickReached s.now (decisionInstant start (s.par c).lead) || startSettled c start s

/-- The current cycle of carrier `c` (R62): it advances at the decision instant of slot 0, and a slot 0 decided under an earlier
lead stays reached (R86). DESIGN CHOICE (log 50): a slot 0 that a raised lead passes over advances it at once; where slot 0 is
neither decided nor passed over, its instant goes by the lead as it now is. -/
def currentCycle (c : Carrier) (s : State) : Option CycleNo :=
  if timingAvailable s then
    match s.tracker.epoch with
    | none => none
    | some e =>
      match s.tracker.next with
      | some g =>
        if startsCycle (e + 1) && startPassed c g.pred s then some (cycleOf (e + 1)) else some (cycleOf e)
      | none => some (cycleOf e)
  else none

/-- The ids that stand in a claim map. -/
def claimIds (m : ClaimMap) : List BatchId := m.toList.filterMap fun e => e

/-- Stale claims: each batch ends NO_TIMING, assigned by R101 (R62, R100; DEDUCED, log 14). DESIGN CHOICE (log 42): they end in
the order of the list, which `bringMaps` gives by ascending slot, the current map before the next, so that of two codes that
reach one slot the earlier batch's id is recorded (R102). -/
def endStale (c : Carrier) : List BatchId → State → State
  | [], s => s
  | id :: rest, s => endStale c rest (endBatch id .noTiming (assignByRun c .noTiming id s))

/-- The claim maps of carrier `c` replaced. -/
def setMaps (c : Carrier) (m : ClaimMaps) (s : State) : State := s.modCar c fun k => { k with maps := m }

/-- The claim maps of carrier `c` brought up to its current cycle: rolled by one cycle, or labelled anew (R62; the order in
which stale claims end: log 42). -/
def bringMaps (c : Carrier) (s : State) : State :=
  match currentCycle c s with
  | none => s
  | some n =>
    let m := (s.car c).maps
    if m.label = some n then s
    else if m.label = some (n - 1) then
      let s := endStale c (claimIds m.current) s
      setMaps c { label := some n, current := (s.car c).maps.next, next := ClaimMap.empty } s
    else
      let s := endStale c (claimIds m.current ++ claimIds m.next) s
      setMaps c { label := some n, current := ClaimMap.empty, next := ClaimMap.empty } s

/-- Both claim maps of every carrier emptied (R77, R78, R79). -/
def emptyMaps (s : State) : State :=
  s.setCarriers (s.carriers.map fun _ k =>
    { k with maps := { k.maps with current := ClaimMap.empty, next := ClaimMap.empty } })

/-! ### Key and word lines (R110, R117) -/

/-- The KEY line is asserted in KEYED, TAIL and PROBE (R110). -/
def keyLine (k : KeyState) : Bool :=
  match k with
  | .keyed | .tail _ | .probe => true
  | .released | .pending _ => false

/-- The STANDBY line is asserted in STANDBY (R110). -/
def standbyLine (p : PowerState) : Bool := p = .standby

/-- The key is busy: not RELEASED (R127). -/
def keyBusy (k : KeyState) : Bool := k ≠ .released

/-- The presence run when the KEY line goes released: it starts where RF_SENSE is present (R125). -/
def presenceAtRelease (now : Tick) (k : CarrierState) : Option Tick :=
  if keyLine k.key then (if k.monitor.rfSense then some now else none) else k.monitor.presence

/-- The key of carrier `c` becomes RELEASED and its word C of the active bank (R115, R117, R127). -/
def dropKey (c : Carrier) (s : State) : State :=
  s.modCar c fun k =>
    { k with key := .released, word := restWord c s
             monitor := { k.monitor with presence := presenceAtRelease s.now k } }

/-- A discarded run sets its batch's next block back to the first block it was to emit (R97). -/
def setBack (r : Run) (s : State) : State :=
  match r.content with
  | .batch id first _ _ _ => if r.ended then s else modBatch id (fun b => { b with nextBlock := first }) s
  | .marker => s

/-- CUT is assigned to the slot of a discarded run, with the run's batch id (R100). -/
def cutRun (c : Carrier) (r : Run) (s : State) : State := assignCode c r.slot .cut r.batchId s

/-- The immediate release of carrier `c` (R117): its runs are discarded, assigning CUT but for the slot `faulting` of a real
guard fault (R100); its key is RELEASED, its word C of the active bank, its opening run absent. No payload end comes that a
stop could wait for: the next decision judges the on-air batch anew (R92, log 29). A key in PROBE is left. -/
def releaseNow (c : Carrier) (faulting : Option SlotRef) (s : State) : State :=
  if (s.car c).key = .probe then s
  else
    let runs := (s.car c).timer.runs
    let s := (runs.filter fun r => some r.slot ≠ faulting).foldl (fun s r => cutRun c r s) s
    let s := runs.foldl (fun s r => setBack r s) s
    let s := modTimer c (fun t => { t with active := none, armed := none, finishing := none }) s
    (dropKey c s).modCar c fun k =>
      { k with sched := { k.sched with stop := none }, monitor := { k.monitor with opening := none } }

/-- Every carrier takes the immediate release. -/
def releaseAll (s : State) : State :=
  releaseNow .c4 none (releaseNow .c3 none (releaseNow .c2 none (releaseNow .c1 none s)))

/-! ### The flush (R77, R78, R79) -/

/-- A flushed batch: CUT if ON_AIR, else `why`; a SUSPENDED or incoming one assigns NO_TIMING (R77, R78, R101, R104). -/
def flushBatch (why : EndReason) (b : Batch) (s : State) : State :=
  if b.state = .onAir then endBatch b.id .cut s
  else if b.state = .suspended || (s.car b.carrier).sched.incoming = some b.id then
    endBatch b.id why (assignByRun b.carrier .noTiming b.id s)
  else endBatch b.id why s

/-- Every batch of the table ends and every claim map is emptied (R77, R78). DESIGN CHOICE (log 37): the batches end in
ascending id, so of two NO_TIMING codes that reach one slot the lower id is recorded (R102). -/
def flushAll (why : EndReason) (s : State) : State :=
  emptyMaps (s.batches.foldl (fun s b => flushBatch why b s) s)

/-! ### The own queue (R159, R160) -/

/-- The queue that is served: the turn's when both hold frames, else the one that holds frames (R160). -/
def arbiterChoice (l : Link) : Option QueueName :=
  match l.own, l.relay with
  | [], [] => none
  | _ :: _, [] => some .own
  | [], _ :: _ => some .relay
  | _ :: _, _ :: _ => some l.turn

/-- With the transmitter IDLE and nothing chosen, the arbiter chooses as a frame joins (R160, log 11). -/
def chooseIfIdle (l : Link) : Link :=
  match l.sending, l.chosen with
  | none, none => { l with chosen := arbiterChoice l }
  | _, _ => l

/-- A frame this part forms is offered to the own queue (R159). -/
def offerOwn (f : Frame) (s : State) : State :=
  if s.link.own.length < Config.queueDepth then
    s.setLink (chooseIfIdle { s.link with own := s.link.own ++ [f] })
  else countOwnDrop s

/-! ### Wake (R122) -/

/-- A wake trigger for carrier `c` (R122). -/
def wakeTrigger (c : Carrier) (s : State) : State :=
  if (s.car c).power = .standby then
    s.modCar c fun k =>
      { k with power := if (s.par c).wake = 0 then .active else .awakening (tickAdd s.now ((s.par c).wake * Config.wakeUnit)) }
  else s

/-! ### The Delay Probe, as the other blocks see it (R151) -/

/-- BUSY: a probe runs (R139). -/
def Probe.busy (p : Probe) : Bool := p.phase ≠ .idle

/-- The probe runs on carrier `c` (R151). -/
def probeOn (c : Carrier) (s : State) : Bool := s.probe.busy && s.probe.carrier = c

end Sys2Proof.Machine
end

