-- ==== Sys2Proof/Machine/Frames.lean ====
section
/-! DEFINITION. How a frame received on UP is checked, filtered, repeated and dispatched, how a request is answered, and
how a cycle report is formed (R103, R153 to R159, R165). -/

namespace Sys2Proof.Machine

/-- A frame to be repeated joins the repeat store (R156; no capacity check, log 12). -/
def repeatFrame (f : Frame) (s : State) : State := s.setLink { s.link with repeatStore := s.link.repeatStore ++ [f] }

/-- The receive event of a frame on UP: the receiver returns to HUNT; a bad frame, or destination 0, adds to BAD_FRAMES; a
broadcast is repeated and taken, a frame for this site is taken, any other is repeated (R153, R155, R156). -/
def receiveUp (kind : Byte) (take : Frame → State → State) (f : RxFrame) (s : State) : State :=
  let s := s.setLink { s.link with rxUp := .hunt }
  let fr := f.withKind kind
  if !goodFrame fr then countBadFrame s
  else if f.dest = 0 then countBadFrame s
  else if f.dest = Config.broadcast then take fr (repeatFrame fr s)
  else if f.dest = s.link.siteAddress then take fr s
  else repeatFrame fr s

/-- A taken traffic frame: counted, and discarded as unmatched where its body length is not its layout's (R157, log 13). -/
def takeTraffic (k : TrafficKind) (len : Nat) (owner : List Byte → State → State) (f : Frame) (s : State) : State :=
  if f.body.length = len then owner f.body (countTaken k s) else countUnmatched k (countTaken k s)

/-- What the owner of a request answers: the reply code, the content and the state after the request's effects (R165). -/
structure Answer where
  code    : ReplyCode
  content : List Byte
  state   : State
  deriving DecidableEq, Repr

/-- A request refused with no content and no effect. -/
def Answer.refuse (code : ReplyCode) (s : State) : Answer := { code := code, content := [], state := s }

/-- The flags octet of an own frame: bit 0 is the attention flag (R159, R161). -/
def flagsOctet (s : State) : Nat := if attention s then 1 else 0

/-- The reply to a request: to the request's source, with its tag, formed after the request's effects (R159, R165). -/
def replyFrame (f : Frame) (a : Answer) : Frame :=
  sealFrame f.src a.state.link.siteAddress kindReply f.tag
    (octets 1 (flagsOctet a.state) ++ f.kind :: replyOctet a.code :: a.content)

/-- The answer of a request: BAD_ARGUMENT before the owner is reached where the body is shorter than the layout (R157,
R165). -/
def judgeRequest (len : Nat) (owner : List Byte → State → Answer) (body : List Byte) (s : State) : Answer :=
  if body.length < len then Answer.refuse .badArgument s else owner body s

/-- A taken request: counted, judged, and answered by one reply frame offered to the own queue (R157, R159, R165). -/
def takeRequest (len : Nat) (owner : List Byte → State → Answer) (f : Frame) (s : State) : State :=
  let a := judgeRequest len owner f.body (countRequest s)
  offerOwn (replyFrame f a) a.state

/-! ### Cycle reports (R103) -/

/-- One entry of a cycle report: code, presence and batch id (section 9.6.3). DESIGN CHOICE (log 51): an id that is
not present is 0. -/
def reportEntry (e : Option SlotOutcome) : List Byte :=
  match e with
  | none => [0, 0, 0, 0]
  | some o => octets 1 (codeNumber o.code) ++ optOctets 2 (o.id.map BitVec.toNat)

/-- The cycle report of carrier `c` for a labelled outcome array (R103, R159, R161). -/
def reportFrame (c : Carrier) (label : CycleNo) (s : State) : Frame :=
  sealFrame Config.broadcast s.link.siteAddress kindCycleReport 0
    (octets 1 (flagsOctet s + (if s.store.low then 2 else 0)) ++ octets 1 (carrierNumber c) ++ octets 4 label.toNat ++
      (s.car c).sched.outcomes.entries.toList.flatMap reportEntry)

/-- The cycle report is formed and offered to the own queue, where the array has a label and reports are on (R103). -/
def sendReport (c : Carrier) (s : State) : State :=
  match (s.car c).sched.outcomes.label with
  | some label => if (s.par c).reports then offerOwn (reportFrame c label s) s else s
  | none => s

/-- The outcome array of carrier `c` cleared and labelled with the new number's cycle (R103). -/
def relabel (c : Carrier) (e : EpochNo) (s : State) : State :=
  modSched c (fun x => { x with outcomes := { OutcomeArray.reset with label := some (cycleOf e) } }) s

/-- The slot 31 among the open slots that are to be recorded. -/
def lastSlotOpen (p : OpenSlot → Bool) (x : Scheduler) : Option SlotRef :=
  ((x.openSlots.filter p).find? fun o => o.slot.index = 31).map OpenSlot.slot

/-- The slot 31 that an epoch start records is noted with the end of its span, the start of the slot after it (R102, log 35). -/
def noteClosed (c : Carrier) (p : OpenSlot → Bool) (s : State) : State :=
  modSched c (fun x => { x with
    closed := (lastSlotOpen p x).bind fun sl => (slotEndTick s.tracker sl).map fun e => { slot := sl, spanEnd := e } }) s

/-- One carrier's outcome array at an epoch start that makes reports: open slots of its cycle are recorded, the report is
sent, the array is relabelled. A slot 31 so recorded is noted. At a renumbering an open slot of another cycle leaves unwritten
(R103, R105, log 15). DESIGN CHOICE (log 46): an array with no label records no slot here, as R103 has it, and takes no label
from a slot 31 still open (R102). -/
def reportCycle (c : Carrier) (e : EpochNo) (renumbering : Bool) (s : State) : State :=
  let p : OpenSlot → Bool := fun o => some o.slot.cycle = (s.car c).sched.outcomes.label
  let s := recordSlots c p (noteClosed c p s)
  let s := if renumbering then modSched c (fun x => { x with openSlots := [] }) s else s
  relabel c e (sendReport c s)

/-- The four carriers in order (R103). -/
def reportCycles (e : EpochNo) (renumbering : Bool) (s : State) : State :=
  reportCycle .c4 e renumbering (reportCycle .c3 e renumbering (reportCycle .c2 e renumbering
    (reportCycle .c1 e renumbering s)))

end Sys2Proof.Machine
end

