-- ==== Sys2Proof/Machine/ProbeUnit.lean ====
section
/-! DEFINITION. The Delay Probe (file 08): its requests PROBE_START, PROBE_ABORT, PROBE_RESULT, its phases and its samples. -/

namespace Sys2Proof.Machine

/-! ### Ending a probe (R146 to R149) -/

/-- The probe ends: IDLE, and unless the no-result mark is set, a record and DONE or ABORTED (R146, R148, R149). -/
def endProbe (r : ProbeRecord) (s : State) : State :=
  let idle : Probe := { s.probe with phase := .idle, phaseEnd := none, aborting := false }
  s.setProbe (if s.probe.noResult then idle
    else { idle with result := some r, done := r.outcome ≠ .aborted, aborted := r.outcome = .aborted })

/-- The record of an aborted probe: the phase in which the abort arrived and the samples as they stood (R148). DESIGN CHOICE
(log 20): it has no adopt flag and no count of delays, which R148 does not list. -/
def abortedRecord (p : Probe) (phase : ProbePhase) : ProbeRecord :=
  { carrier := p.carrier, mode := p.mode, outcome := .aborted, abortPhase := phase, samples := p.samples, delays := 0,
    mean := none, spread := none, smallest := none, largest := none, adopt := false, adopted := false, firstRf := none
    endTick := none }

/-- The probe returns its carrier's key, if it holds it (R127). -/
def returnKey (s : State) : State := if (s.car s.probe.carrier).key = .probe then dropKey s.probe.carrier s else s

/-- An abort (R148): nothing where no probe runs or it is aborting already. -/
def abortProbe (s : State) : State :=
  if !s.probe.busy || s.probe.aborting then s
  else
    match s.probe.phase with
    | .observe => endProbe (abortedRecord s.probe .observe) s
    | .loadReturn => s.setProbe { s.probe with aborting := true, abortPhase := .loadReturn }
    | _ =>
      let t := returnKey s
      t.setProbe { t.probe with
        phase := .loadReturn, phaseEnd := some (tickAdd s.now Config.loadReturnTicks)
        aborting := true, abortPhase := s.probe.phase }

/-- What RESTART does to the probe: abort, result and flags cleared, and the no-result mark where a probe still runs
(R149). -/
def restartProbe (s : State) : State :=
  let s := abortProbe s
  s.setProbe { s.probe with
    result := none, done := false, aborted := false, noResult := s.probe.noResult || s.probe.busy }

/-! ### The requests -/

/-- The conditions of PROBE_START after its arguments are in range: checks 2 to 5 (R140). -/
def probeRefusal (c : Carrier) (s : State) : Option ReplyCode :=
  if s.probe.busy then some .measureBusy
  else if !(s.tracker.ref = .locked || s.tracker.ref = .holdover) then some .noTiming
  else if (s.car c).power ≠ .active then some .carrierStandby
  else if keyBusy (s.car c).key || (s.car c).sched.onAir.isSome then some .carrierBusy
  else none

/-- A mode octet: 0 PATH, 1 QUIET (R161). -/
def modeOf (n : Nat) : Option ProbeMode :=
  match n with
  | 0 => some .path
  | 1 => some .quiet
  | _ => none

/-- A taken PROBE_START (R141, R147). DESIGN CHOICE (log 48): RF already present at the start is seen at the start tick. -/
def startProbe (c : Carrier) (mode : ProbeMode) (adopt : Bool) (s : State) : State :=
  let p : Probe := { s.probe with
    carrier := c, mode := mode, adopt := adopt, samples := Probe.noSamples, emitted := 0, assessment := none
    aborting := false, noResult := false, firstRf := none }
  match mode with
  | .path =>
    (s.setProbe { p with phase := .loadSettle, phaseEnd := some (tickAdd s.now Config.loadSettleTicks) }).modCar c
      fun k => { k with load := true }
  | .quiet =>
    s.setProbe { p with
      phase := .observe, phaseEnd := some (tickAdd s.now Config.observeTicks)
      firstRf := if (s.car c).monitor.rfSense then some s.now else none }

/-- PROBE_START clears the result and its flags, taken or refused (R140). -/
def clearResult (s : State) : State := s.setProbe { s.probe with result := none, done := false, aborted := false }

/-- PROBE_START (R140, R141). -/
def ownerProbeStart (body : List Byte) (s : State) : Answer :=
  let s := clearResult s
  match carrierOf (field body 0 1), modeOf (field body 1 1) with
  | some c, some m =>
    match probeRefusal c s with
    | some code => Answer.refuse code s
    | none =>
      { code := .ok
        content := octets 1 (carrierNumber c) ++ octets 1 (modeOctet m) ++ octets 7 s.now.toNat
        state := startProbe c m (flagSet (field body 2 1)) s }
  | _, _ => Answer.refuse .badArgument s

/-- PROBE_ABORT (R149). -/
def ownerProbeAbort (_body : List Byte) (s : State) : Answer :=
  if s.probe.busy then { code := .ok, content := [], state := abortProbe s } else Answer.refuse .refusedState s

/-- The flags octet of a probe record: BUSY, DONE, ABORTED, aborting (R165). -/
def probeFlags (p : Probe) : Nat :=
  (if p.busy then 1 else 0) + (if p.done then 2 else 0) + (if p.aborted then 4 else 0) +
    (if p.busy && p.aborting then 8 else 0)

/-- The body of a probe record after its flags octet (R165). Items the reply does not carry are 0 (log 20). -/
def recordOctets (carrier mode phase outcome : Nat) (samples : List Sample) (delays : Nat) (mean spread smallest largest :
    Option Nat) (adopt : Nat) (firstRf : Option Tick) : List Byte :=
  octets 1 carrier ++ octets 1 mode ++ octets 1 phase ++ octets 1 outcome ++
    samples.flatMap (fun x => octets 2 (sampleNumber x)) ++ octets 1 delays ++ optOctets 4 mean ++
    octets 2 (spread.getD 0) ++ octets 2 (smallest.getD 0) ++ octets 2 (largest.getD 0) ++ octets 1 adopt ++
    optOctets 7 (firstRf.map BitVec.toNat)

/-- The content of a PROBE_RESULT reply: the running context while BUSY, the record while DONE or ABORTED, else none
(R150, R165; items not listed for it: log 20). -/
def probeContent (p : Probe) : List Byte :=
  octets 1 (probeFlags p) ++
    (if p.busy then
      recordOctets (carrierNumber p.carrier) (modeOctet p.mode) (phaseOctet p.phase) 0 p.samples 0 none none none none 0 none
    else
      match p.result with
      | some r =>
        recordOctets (carrierNumber r.carrier) (modeOctet r.mode) (phaseOctet r.abortPhase) (probeOutcomeOctet r.outcome)
          r.samples r.delays r.mean r.spread r.smallest r.largest
          ((if r.adopt then 1 else 0) + (if r.adopted then 2 else 0)) r.firstRf
      | none => recordOctets 0 0 0 0 Probe.noSamples 0 none none none none 0 none)

/-- PROBE_RESULT (R150): the result, once read, is cleared. -/
def ownerProbeResult (_body : List Byte) (s : State) : Answer :=
  { code := .ok, content := probeContent s.probe
    state := if s.probe.done || s.probe.aborted then clearResult s else s }

/-! ### The phases (R142 to R147) -/

/-- The probe is in this phase and the tick count has reached its end. -/
def phaseDue (p : ProbePhase) (s : State) : Bool := s.probe.phase = p && s.probe.phaseEnd = some s.now

/-- The probe drives the word of level `v`; a clamped one counts (R142, R143). -/
def driveProbe (v : Int) (s : State) : State :=
  let c := s.probe.carrier
  let t := s.modCar c fun k => { k with word := wordOf s.probe.words v }
  if wordClamped s.probe.words v then countClampedWord c t else t

/-- The level of probe `i`: +3 for even, −3 for odd (R143). -/
def probeLevel (i : Nat) : Int := if i % 2 = 0 then 3 else -3

/-- The PROBE phase begins with probe 0 (R143). -/
def beginProbes (s : State) : State :=
  driveProbe (probeLevel 0)
    (s.setProbe { s.probe with phase := .probe, phaseEnd := some (tickAdd s.now Config.probeTicks), emitted := 1 })

/-- LOAD_SETTLE ends: KEY_UP takes the key, fixes the word set and drives the −3 word; a lead of 0 ends KEY_UP within the
event (R127, R142). -/
def loadSettleEnd (s : State) : State :=
  if phaseDue .loadSettle s then
    let c := s.probe.carrier
    let lead := (s.par c).lead
    let t := s.setProbe { s.probe with
      phase := .keyUp, phaseEnd := some (tickAdd s.now (lead * Config.msTicks)), words := activeWords c s }
    let t := t.modCar c fun k => { k with key := .probe, monitor := { k.monitor with presence := none } }
    let t := driveProbe (-3) t
    if lead = 0 then beginProbes t else t
  else s

/-- KEY_UP ends (R143). -/
def keyUpEnd (s : State) : State := if phaseDue .keyUp s then beginProbes s else s

/-- P0, the tick at which the PROBE phase began: its phase end less 1,280,000 (R143). -/
def probeOrigin (s : State) : Option Tick :=
  if s.probe.phase = .probe then s.probe.phaseEnd.map fun e => tickSub e Config.probeTicks else none

/-- The emission tick of probe `i` (R143). -/
def emissionTick (p0 : Tick) (i : Nat) : Tick := tickAdd p0 (Config.probeSpacing * i)

/-- The next probe is emitted at its tick (R143). -/
def probeEmission (s : State) : State :=
  match probeOrigin s with
  | some p0 =>
    if s.probe.emitted < 16 && s.now = emissionTick p0 s.probe.emitted then
      driveProbe (probeLevel s.probe.emitted) (s.setProbe { s.probe with emitted := s.probe.emitted + 1 })
    else s
  | none => s

/-- The number and the emission tick of the probe emitted last. -/
def lastProbe (s : State) : Option (Nat × Tick) :=
  match probeOrigin s with
  | some p0 => if s.probe.emitted = 0 then none else some (s.probe.emitted - 1, emissionTick p0 (s.probe.emitted - 1))
  | none => none

/-- Sample `i` set. -/
def setSample (i : Nat) (x : Sample) (s : State) : State := s.setProbe { s.probe with samples := s.probe.samples.set i x }

/-- The window of the probe emitted last closes without a change (R144). -/
def edgeWindowClose (s : State) : State :=
  match lastProbe s with
  | some (i, e) =>
    if s.now = tickAdd e Config.edgeWindow && s.probe.samples.getD i .missed = .notTaken then setSample i .missed s else s
  | none => s

/-- A change of MOD_SENSE on the probe's carrier gives the sample of an open window. A change at the window's last tick is
taken even where the window was closed at that very tick (R144, log 18). -/
def takeSample (s : State) : State :=
  match lastProbe s with
  | some (i, e) =>
    let d := tickSpan s.now e
    let x := s.probe.samples.getD i .missed
    if 1 ≤ d && d ≤ Config.edgeWindow && (x = .notTaken || (x = .missed && d = Config.edgeWindow)) then
      setSample i (.delay d) s
    else s
  | none => s

/-- MOD_SENSE_CHANGE (R144): nothing is timed while the reference clock is lost (R1). -/
def modSenseChange (c : Carrier) (s : State) : State :=
  let t := s.modCar c fun k => { k with modPin := !k.modPin }
  if s.tracker.ref ≠ .noClock && s.probe.phase = .probe && s.probe.carrier = c then takeSample t else t

/-- The delay of a sample. -/
def sampleDelay : Sample → Option Nat
  | .delay n => some n
  | _ => none

/-- The samples that are delays. -/
def delaysOf (samples : List Sample) : List Nat := samples.filterMap sampleDelay

/-- The smallest and the largest of a list, 0 for none. -/
def least (ds : List Nat) : Nat := ds.tail.foldl min (ds.headD 0)
def greatest (ds : List Nat) : Nat := ds.foldl max 0

/-- The assessment of the samples (R145): mean and spread only where every sample is a delay. -/
def assess (samples : List Sample) : Assessment :=
  let ds := delaysOf samples
  if ds.length = 16 && samples.length = 16 then
    let spread := greatest ds - least ds
    { valid := spread ≤ Config.spreadLimit, mean := some (roundUp (ds.sum * 100) 16), spread := some spread }
  else { valid := false, mean := none, spread := none }

/-- The two words of the probe word set are equal: no probe changes the word (R143). -/
def equalWords (w : WordSet) : Bool := wordOf w 3 = wordOf w (-3)

/-- The assessment of a probe (R143, R145): with equal words it is not valid, whatever the samples; its mean and spread are
those of the samples (DEDUCED, log 39). -/
def assessProbe (p : Probe) : Assessment :=
  let a := assess p.samples
  { a with valid := a.valid && !equalWords p.words }

/-- PROBE ends: the samples are assessed, the key is returned, KEY_DOWN begins (R142, R143, R145). -/
def probePhaseEnd (s : State) : State :=
  if phaseDue .probe s then
    let t := returnKey s
    t.setProbe { t.probe with
      phase := .keyDown, phaseEnd := some (tickAdd s.now Config.keyDownTicks), assessment := some (assessProbe s.probe) }
  else s

/-- KEY_DOWN ends: LOAD_RETURN begins (R142). -/
def keyDownEnd (s : State) : State :=
  if phaseDue .keyDown s then
    s.setProbe { s.probe with phase := .loadReturn, phaseEnd := some (tickAdd s.now Config.loadReturnTicks) }
  else s

/-- The record of a PATH probe that was not aborted (R146). -/
def pathRecord (p : Probe) : ProbeRecord :=
  let a := p.assessment.getD (assessProbe p)
  let ds := delaysOf p.samples
  { carrier := p.carrier, mode := .path, outcome := if a.valid then .valid else .invalid, abortPhase := .idle
    samples := p.samples, delays := ds.length, mean := a.mean, spread := a.spread
    smallest := a.mean.map fun _ => least ds
    largest := a.mean.map fun _ => greatest ds
    adopt := p.adopt, adopted := p.adopt && a.valid, firstRf := none, endTick := none }

/-- An adopted mean becomes the carrier's pending delay (R55, R146). -/
def adoptDelay (r : ProbeRecord) (s : State) : State :=
  match r.mean with
  | some m =>
    if r.adopted then
      let d := s.align.delays.get r.carrier
      s.setAlign { s.align with delays := s.align.delays.set r.carrier { d with pending := some m } }
    else s
  | none => s

/-- LOAD_RETURN ends: LOAD is released, and the probe ends ABORTED, or with its result and adoption, or leaving nothing
(R142, R146, R148, R149). -/
def loadReturnEnd (s : State) : State :=
  if phaseDue .loadReturn s then
    let t := s.modCar s.probe.carrier fun k => { k with load := false }
    if s.probe.aborting then endProbe (abortedRecord s.probe s.probe.abortPhase) t
    else
      let r := pathRecord s.probe
      endProbe r (if s.probe.noResult then t else adoptDelay r t)
  else s

/-- The record of a QUIET check that ends at tick `now` (R147). -/
def quietRecord (now : Tick) (p : Probe) : ProbeRecord :=
  { carrier := p.carrier, mode := .quiet, outcome := if p.firstRf.isSome then .fail else .pass, abortPhase := .idle
    samples := Probe.noSamples, delays := 0, mean := none, spread := none, smallest := none, largest := none
    adopt := false, adopted := false, firstRf := p.firstRf, endTick := some now }

/-- OBSERVE ends (R147). -/
def observeEnd (s : State) : State := if phaseDue .observe s then endProbe (quietRecord s.now s.probe) s else s

/-! ### The meanings -/

def execProbeStart (f : RxFrame) (s : State) : Host.Outcome State Fault Refusal :=
  .next (receiveUp kindProbeStart (takeRequest 3 ownerProbeStart) f s)

def execProbeAbort (f : RxFrame) (s : State) : Host.Outcome State Fault Refusal :=
  .next (receiveUp kindProbeAbort (takeRequest 0 ownerProbeAbort) f s)

def execProbeResult (f : RxFrame) (s : State) : Host.Outcome State Fault Refusal :=
  .next (receiveUp kindProbeResult (takeRequest 0 ownerProbeResult) f s)

def execModSenseChange (c : Carrier) (s : State) : Host.Outcome State Fault Refusal := .next (modSenseChange c s)

def execLoadSettleEnd (s : State) : Host.Outcome State Fault Refusal := .next (loadSettleEnd s)

def execKeyUpEnd (s : State) : Host.Outcome State Fault Refusal := .next (keyUpEnd s)

def execProbeEmission (s : State) : Host.Outcome State Fault Refusal := .next (probeEmission s)

def execEdgeWindowClose (s : State) : Host.Outcome State Fault Refusal := .next (edgeWindowClose s)

def execProbePhaseEnd (s : State) : Host.Outcome State Fault Refusal := .next (probePhaseEnd s)

def execKeyDownEnd (s : State) : Host.Outcome State Fault Refusal := .next (keyDownEnd s)

def execLoadReturnEnd (s : State) : Host.Outcome State Fault Refusal := .next (loadReturnEnd s)

def execObserveEnd (s : State) : Host.Outcome State Fault Refusal := .next (observeEnd s)

end Sys2Proof.Machine
end

