-- ==== Sys2Proof/Machine/EpochTracker.lean ====
section
/-! DEFINITION. The Epoch Tracker (file 01): clock loss and return, epoch pulses, holdover, epoch numbers, time marks and
EPOCH_SET, with the reactions of the other blocks to its events. -/

namespace Sys2Proof.Machine

/-- The Tracker changed. -/
def modTracker (f : Tracker → Tracker) (s : State) : State := s.setTracker (f s.tracker)

/-! ### The reference clock (R1 to R3, R126, R129) -/

/-- Every carrier's RF_SENSE is sampled; a presence run starts where it is present and the KEY line is released
(R126, R129). -/
def sampleRf (s : State) : State :=
  s.setCarriers (s.carriers.map fun _ k =>
    { k with monitor := { k.monitor with
        rfSense := k.monitor.rfPin
        presence := if k.monitor.rfPin && !keyLine k.key then some s.now else none } })

/-- The tick count increases by 1, modulo 2^56 (R1). -/
def advanceTick (s : State) : State := modTracker (fun t => { t with tick := t.tick + 1 }) s

/-- The first edge in NO_CLOCK (R3): it counts (R1, log 10), the state is ACQUIRING with an empty history, and the monitor
samples again (R126). -/
def clockReturn (s : State) : State :=
  if s.tracker.ref = .noClock then
    (sampleRf (modTracker (fun t => { t with ref := .acquiring, lastPulse := none, history := [] })
      (advanceTick s))).setFirstEdge false
  else s

/-- A rising edge of REF_10M (R1). In NO_CLOCK it returns the clock (R3); the first edge after a reset samples RF_SENSE
(R129). -/
def clockEdge (s : State) : State :=
  if s.tracker.ref = .noClock then clockReturn s
  else
    let t := advanceTick s
    if s.firstEdge then (sampleRf t).setFirstEdge false else t

/-- What CLOCK_LOST makes of the Tracker (R2). -/
def Tracker.lose (t : Tracker) : Tracker :=
  { t with ref := .noClock, history := [], anchor := none, current := none, next := none, window := none, h := 0
           lastPulse := none, pending := none, mismatchRun := 0 }

/-- The reactions to CLOCK_LOST and HOLDOVER_EXPIRED (R2, R13, R77, R104, R117, R148): the probe is aborted, every key is
released, every batch ends. -/
def timingLoss (s : State) : State := flushAll .noTiming (releaseAll (abortProbe s))

/-- Every open slot of every carrier is recorded (R104). -/
def recordAllOpen (s : State) : State :=
  recordSlots .c4 (fun _ => true) (recordSlots .c3 (fun _ => true) (recordSlots .c2 (fun _ => true)
    (recordSlots .c1 (fun _ => true) s)))

/-- Every presence run and every opening run becomes absent (R126). -/
def clearMonitors (s : State) : State :=
  s.setCarriers (s.carriers.map fun _ k => { k with monitor := { k.monitor with opening := none, presence := none } })

/-- CLOCK_LOST (R2, R104, R126). A loss in NO_CLOCK cannot occur. -/
def clockLost (s : State) : State :=
  if s.tracker.ref = .noClock then s
  else latch .clockLost (modTracker Tracker.lose (clearMonitors (recordAllOpen (timingLoss s))))

/-! ### History, prediction and window (R7 to R9) -/

/-- A good interval (R5, R10). -/
def goodInterval (d : Nat) : Bool := Config.intervalMin ≤ d && d ≤ Config.intervalMax

/-- An interval joins the history at its head; the ninth entry leaves (R7). -/
def joinHistory (d : Nat) (h : List Nat) : List Nat := (d :: h).take Config.historyDepth

/-- Sum8: absent while fewer than 8 entries are held (R7). -/
def Tracker.sum8 (t : Tracker) : Option Nat := if t.history.length = Config.historyDepth then some t.history.sum else none

/-- An epoch starts with this anchor: the next prediction becomes the current grid, and the window closes (R8). -/
def Tracker.begin (a : Anchor) (t : Tracker) : Tracker :=
  { t with anchor := some a, current := t.next, next := none, window := none }

/-- The next prediction is formed from the current anchor, and its window opens with the W in force (R8, R9). -/
def Tracker.predict (w : Nat) (t : Tracker) : Tracker :=
  match t.anchor, t.sum8 with
  | some a, some m => { t with next := some { pred := fxAdd a.start (m * 8192 : Nat), sum8 := m }, window := some w }
  | _, _ => t

/-- The tick lies in the open window, PT − W to PT + W inclusive (R9). -/
def Tracker.inWindow (t : Tracker) : Bool :=
  match t.window, t.next with
  | some w, some g => tickSpan t.tick (tickSub (fxTick g.pred) w) ≤ 2 * w
  | _, _ => false

/-! ### Epoch numbers (R14, R15) -/

/-- The number of the next start is taken: the pending number, else one more, else UNSET (R14). -/
def Tracker.takeNumber (t : Tracker) : Tracker :=
  match t.pending with
  | some p => { t with epoch := some p.number, pending := none, mismatchRun := 0 }
  | none => { t with epoch := t.epoch.map fun e => e + 1 }

/-- The start is a renumbering: an ADOPT, or a FORCED while the number was set, that differs from the number the epoch
would have taken (R15). -/
def Tracker.renumbers (t : Tracker) : Bool :=
  match t.pending, t.epoch with
  | some p, some e => p.kind ≠ .markSet && p.number ≠ e + 1
  | _, _ => false

/-- The renumbering's flush (R15, R78, R105, R117). -/
def renumberingFlush (s : State) : State := flushAll .epochRenumbered (releaseAll (latch .epochRenumbered s))

/-- Every carrier's claim maps brought up to its current cycle (R62). -/
def bringAllMaps (s : State) : State := bringMaps .c4 (bringMaps .c3 (bringMaps .c2 (bringMaps .c1 s)))

/-- The reports of an epoch start that is a renumbering or whose number is a multiple of 4 (R103). -/
def startReports (renumbering : Bool) (s : State) : State :=
  match s.tracker.epoch with
  | some e => if renumbering || startsCycle e then reportCycles e renumbering s else s
  | none => s

/-- The epoch start completed: the number is taken, a renumbering flushes, reports are made, and the maps are labelled
(R14, R15, R62, R103). -/
def completeStart (s : State) : State :=
  let r := s.tracker.renumbers
  let t := modTracker Tracker.takeNumber s
  let t := if r then renumberingFlush t else t
  bringAllMaps (startReports r t)

/-! ### Epoch pulses (R5, R6, R10, R11) -/

/-- The history after a pulse in ACQUIRING (R5). -/
def Tracker.acquired (t : Tracker) : List Nat :=
  match t.lastPulse with
  | none => []
  | some l => if goodInterval (tickSpan t.tick l) then joinHistory (tickSpan t.tick l) t.history else []

/-- A pulse in ACQUIRING (R5); the 8th good interval locks (R6). -/
def Tracker.acquire (w : Nat) (t : Tracker) : Tracker :=
  let u := { t.begin { start := tickFx t.tick, kind := .pulse } with lastPulse := some t.tick, history := t.acquired }
  if u.history.length = Config.historyDepth then Tracker.predict w { u with ref := .locked, h := 0, lastPulse := none } else u

/-- The history after an accepted pulse: a good interval from an anchor of kind PULSE joins (R10). -/
def Tracker.accepted (t : Tracker) : List Nat :=
  match t.anchor with
  | some a =>
    if a.kind = .pulse && goodInterval (tickSpan t.tick (fxTick a.start)) then
      joinHistory (tickSpan t.tick (fxTick a.start)) t.history
    else t.history
  | none => t.history

/-- A pulse accepted in its window (R10). -/
def Tracker.accept (w : Nat) (t : Tracker) : Tracker :=
  Tracker.predict w
    { t.begin { start := tickFx t.tick, kind := .pulse } with history := t.accepted, ref := .locked, h := 0 }

/-- EPOCH_PULSE, by the reference state (R3, R5, R10, R11). -/
def epochPulse (s : State) : State :=
  match s.tracker.ref with
  | .noClock => s
  | .acquiring => completeStart (modTracker (Tracker.acquire s.mgmt.params.w) s)
  | .locked | .holdover =>
    if s.tracker.inWindow then completeStart (modTracker (Tracker.accept s.mgmt.params.w) s) else countStrayPulse s

/-! ### Holdover (R12, R13) -/

/-- The window has passed without acceptance: the tick is PT + W + 1 (R12). -/
def Tracker.windowPassed (t : Tracker) : Bool :=
  match t.ref, t.window, t.next with
  | .locked, some w, some g => t.tick = tickAdd (fxTick g.pred) (w + 1)
  | .holdover, some w, some g => t.tick = tickAdd (fxTick g.pred) (w + 1)
  | _, _, _ => false

/-- Steps 1 and 2 of R12: the anchor becomes the prediction, and h counts. -/
def Tracker.holdOver (t : Tracker) : Tracker :=
  match t.next with
  | some g =>
    { t.begin { start := g.pred, kind := .holdover } with ref := .holdover, h := if t.ref = .locked then 1 else t.h + 1 }
  | none => t

/-- What HOLDOVER_EXPIRED makes of the Tracker (R13). -/
def Tracker.expire (t : Tracker) : Tracker :=
  { t with history := [], current := none, next := none, window := none, h := 0, lastPulse := none, ref := .acquiring }

/-- The number the coming start takes is a multiple of 4. -/
def Tracker.startsCycleNext (t : Tracker) : Bool :=
  match t.takeNumber.epoch with
  | some e => startsCycle e
  | none => false

/-- HOLDOVER_EXPIRED and the rest of its epoch start (R13, R104): the open slots are recorded at the event, but where the
start begins a cycle, those of the new cycle only after the reports. -/
def expireHoldover (s : State) : State :=
  let t := latch .holdoverExpired (timingLoss s)
  if s.tracker.startsCycleNext then recordAllOpen (completeStart (modTracker Tracker.expire t))
  else completeStart (modTracker Tracker.expire (recordAllOpen t))

/-- HOLDOVER_EPOCH_START (R12, R13). -/
def holdoverStart (s : State) : State :=
  if s.tracker.windowPassed then
    let t := latchIf (s.tracker.ref = .locked) .holdover (modTracker Tracker.holdOver s)
    if t.tracker.h ≤ s.mgmt.params.h then completeStart (modTracker (Tracker.predict s.mgmt.params.w) t)
    else expireHoldover t
  else s

/-! ### Time marks (R17 to R19) and EPOCH_SET (R20) -/

/-- The guard instant of time marks (R17). -/
def Tracker.guard (t : Tracker) : Option Tick :=
  match t.ref with
  | .noClock => none
  | .acquiring => t.lastPulse.map fun l => tickAdd l Config.acquiringGuard
  | .locked | .holdover => t.next.map fun g => tickSub (fxTick g.pred) Config.markGuard

/-- The mark is rejected: NO_CLOCK, or timed after the guard instant (R17). -/
def Tracker.rejectsMark (t : Tracker) : Bool :=
  t.ref = .noClock ||
    (match t.guard with
     | some g => t.tick ≠ g && tickReached t.tick g
     | none => false)

/-- A pending ADOPT is withdrawn (R19). -/
def withdrawAdopt (p : Option PendingNumber) : Option PendingNumber :=
  match p with
  | some q => if q.kind = .adopt then none else some q
  | none => none

/-- A FORCED number is pending. -/
def Tracker.forcedPending (t : Tracker) : Bool :=
  match t.pending with
  | some q => q.kind = .forced
  | none => false

/-- A mark taken while the number is UNSET (R18). -/
def Tracker.setMark (n : EpochNo) (t : Tracker) : Tracker :=
  if t.forcedPending then t else { t with pending := some { kind := .markSet, number := n } }

/-- The run after a mismatching mark with this offset (R19). -/
def Tracker.nextRun (offset : BitVec 32) (t : Tracker) : Nat :=
  if t.mismatchRun = 0 || offset ≠ t.mismatchOffset then 1 else min (t.mismatchRun + 1) 3

/-- The pending number after a mismatching mark that leaves the run at `run` (R19). -/
def Tracker.pendingAfter (n : EpochNo) (run : Nat) (t : Tracker) : Option PendingNumber :=
  if t.forcedPending then t.pending
  else if run = 1 then withdrawAdopt t.pending
  else if run = 3 then some { kind := .adopt, number := n }
  else t.pending

/-- A mark that differs from the expected number (R19). -/
def Tracker.mismatch (n expected : EpochNo) (t : Tracker) : Tracker :=
  let run := t.nextRun (n - expected)
  { t with mismatchRun := run, mismatchOffset := n - expected, pending := t.pendingAfter n run }

/-- A mark taken (R18, R19). -/
def takeMark (n : EpochNo) (s : State) : State :=
  match s.tracker.epoch with
  | none => modTracker (Tracker.setMark n) s
  | some e =>
    if n = e + 1 then modTracker (fun t => { t with mismatchRun := 0, pending := withdrawAdopt t.pending }) s
    else latch .epochMismatch (modTracker (Tracker.mismatch n (e + 1)) s)

/-- TIME_MARK (R17). -/
def ownerTimeMark (body : List Byte) (s : State) : State :=
  if s.tracker.rejectsMark then countMarkRejected s else takeMark (BitVec.ofNat 32 (field body 0 4)) s

/-- EPOCH_SET (R20). -/
def ownerEpochSet (body : List Byte) (s : State) : Answer :=
  if s.tracker.ref = .noClock then Answer.refuse .noTiming s
  else
    { code := .ok, content := []
      state := modTracker (fun t =>
        { t with pending := some { kind := .forced, number := BitVec.ofNat 32 (field body 0 4) } }) s }

/-! ### The meanings -/

def execClockLost (s : State) : Host.Outcome State Fault Refusal := .next (clockLost s)

def execClockReturn (s : State) : Host.Outcome State Fault Refusal := .next (clockReturn s)

def execReferenceClockEdge (s : State) : Host.Outcome State Fault Refusal := .next (clockEdge s)

def execEpochPulse (s : State) : Host.Outcome State Fault Refusal := .next (epochPulse s)

def execHoldoverEpochStart (s : State) : Host.Outcome State Fault Refusal := .next (holdoverStart s)

def execTimeMark (f : RxFrame) (s : State) : Host.Outcome State Fault Refusal :=
  .next (receiveUp kindTimeMark (takeTraffic .timeMark 4 ownerTimeMark) f s)

def execEpochSet (f : RxFrame) (s : State) : Host.Outcome State Fault Refusal :=
  .next (receiveUp kindEpochSet (takeRequest 4 ownerEpochSet) f s)

end Sys2Proof.Machine
end

