-- ==== Sys2Proof/Machine/AlignTable.lean ====
section
/-! DEFINITION. The Alignment Table (file 03): LOAD_ALIGN, COMMIT_ALIGN, READ_ALIGN and the table roll. -/

namespace Sys2Proof.Machine

/-! ### LOAD_ALIGN (R43, R44) -/

/-- A row of a LOAD_ALIGN body: the enabled flag, the offset as carried, from the i-th row's 5 octets (section 9.6.2). -/
def carriedRow (body : List Byte) (i : Nat) : Bool × Int :=
  (flagSet (field body (11 + 5 * i) 1), signedField body (12 + 5 * i))

/-- The rows a LOAD_ALIGN carries: (L − 11) div 5 (R157). -/
def rowsCarried (body : List Byte) : Nat := (body.length - 11) / 5

/-- An offset as a load confines it (R44). -/
def confineOffset (x : Int) : Int := clampInt (-Config.offsetLimit) Config.offsetLimit x

/-- The rows written into a record: the i-th row carried goes to row first + i (R44). -/
def writeRows (body : List Byte) (first count : Nat) (rows : Vector GroupRow 16) : Vector GroupRow 16 :=
  rows.mapFinIdx fun j r _ =>
    if first ≤ j && j < first + count then
      { enabled := (carriedRow body (j - first)).1, offset := confineOffset (carriedRow body (j - first)).2 }
    else r

/-- G as a load confines it (R44). -/
def confineGain (x : Int) : Int := clampInt 0 65535 x

/-- C as a load confines it (R44). -/
def confineCentre (x : Int) : Int := clampInt (-16384) 16383 x

/-- Some value of the load was clamped (R44). -/
def loadClamped (body : List Byte) (count : Nat) : Bool :=
  confineGain (signedField body 1) ≠ signedField body 1 || confineCentre (signedField body 5) ≠ signedField body 5 ||
    (List.range count).any fun i => confineOffset (carriedRow body i).2 ≠ (carriedRow body i).2

/-- The staged record after a load (R44). -/
def loadedRecord (body : List Byte) (first count : Nat) (r : CarrierRecord) : CarrierRecord :=
  { gain := BitVec.ofInt 16 (confineGain (signedField body 1)), centre := confineCentre (signedField body 5)
    rows := writeRows body first count r.rows }

/-- LOAD_ALIGN (R43, R44). -/
def ownerLoadAlign (body : List Byte) (s : State) : Answer :=
  let first := field body 9 1
  let count := field body 10 1
  match carrierOf (field body 0 1) with
  | none => Answer.refuse .badArgument s
  | some c =>
    if !(1 ≤ count && count ≤ 16 && first ≤ 15 && rowsCarried body = count) then Answer.refuse .badArgument s
    else if 16 < first + count then Answer.refuse .badArgument s
    else if s.align.pending.isSome then Answer.refuse .stagedLocked s
    else
      let b := s.align.staged
      let b := { b with records := b.records.set c (loadedRecord body first count (b.records.get c)) }
      { code := if loadClamped body count then .clamped else .ok, content := []
        state := s.setAlign { s.align with staged := b } }

/-! ### COMMIT_ALIGN (R46, R47) -/

/-- The tick of the table roll before the epoch of a prediction (R45). -/
def rollTick (g : Grid) : Tick := tickSub (fxTick g.pred) Config.rollLead

/-- The commit with target S is late (R46). -/
def commitLate (target : EpochNo) (s : State) : Bool :=
  match s.tracker.epoch with
  | none => true
  | some e =>
    !timingAvailable s || epochAtOrBehind target e ||
      (target = e + 1 &&
        (match s.tracker.next with
         | none => true
         | some g => tickReached s.now (rollTick g)))

/-- COMMIT_ALIGN (R42, R46, R47). -/
def ownerCommitAlign (body : List Byte) (s : State) : Answer :=
  let target := nextCycleStart (BitVec.ofNat 32 (field body 0 4))
  let version := BitVec.ofNat 16 (field body 4 2)
  if commitLate target s then
    { code := .lateCommit, content := octets 4 target.toNat
      state := s.setAlign { s.align with pending := none, staged := { s.align.staged with tag := s.align.active.tag } } }
  else
    { code := .ok, content := octets 4 target.toNat
      state := s.setAlign { s.align with
        pending := some { target := target, version := version }, staged := { s.align.staged with tag := version } } }

/-! ### READ_ALIGN (R51) -/

/-- A group row in a reply: enabled and offset (R165). -/
def rowOctets (r : GroupRow) : List Byte := boolOctet r.enabled ++ signedOctets 4 r.offset

/-- The pending switch in a reply: presence, S and V (R165). DESIGN CHOICE (logs 49, 51): the first octet is 1 or 0, and S and V
are 0 where no switch is pending. -/
def switchOctets (p : Option PendingSwitch) : List Byte :=
  match p with
  | some x => 1 :: octets 4 x.target.toNat ++ octets 2 x.version.toNat
  | none => 0 :: octets 4 0 ++ octets 2 0

/-- A bank octet: 0 ACTIVE, 1 STAGED (R51). -/
def bankOf (n : Nat) (a : Align) : Option Bank :=
  match n with
  | 0 => some a.active
  | 1 => some a.staged
  | _ => none

/-- READ_ALIGN (R51). -/
def ownerReadAlign (body : List Byte) (s : State) : Answer :=
  let first := field body 2 1
  let count := field body 3 1
  match bankOf (field body 0 1) s.align, carrierOf (field body 1 1) with
  | some b, some c =>
    if 1 ≤ count && count ≤ 16 && first ≤ 15 && first + count ≤ 16 then
      let r := b.records.get c
      { code := .ok
        content := octets 2 r.gain.toNat ++ signedOctets 2 r.centre ++
          ((r.rows.toList.drop first).take count).flatMap rowOctets ++ octets 2 b.tag.toNat ++ switchOctets s.align.pending
        state := s }
    else Answer.refuse .badArgument s
  | _, _ => Answer.refuse .badArgument s

/-! ### The table roll (R45, R48, R56) -/

/-- The cycle's first epoch whose table roll falls at this tick (R45). -/
def rollEpoch (s : State) : Option EpochNo :=
  match s.tracker.epoch, s.tracker.next with
  | some e, some g =>
    if timingAvailable s && startsCycle (e + 1) && s.now = rollTick g && s.align.lastRoll ≠ some s.now then some (e + 1)
    else none
  | _, _ => none

/-- A pending delay taken as the path delay (R56). -/
def takeDelay (d : PathDelay) : PathDelay :=
  match d.pending with
  | some v => { value := v, pending := none }
  | none => d

/-- A switch is pending and the roll's cycle, first epoch `first`, is at or after its target (R48; DEDUCED,
log 52: R48's later words 'if 4n is still ahead of S' are read as S still ahead of 4n). -/
def switchDue (first : EpochNo) (a : Align) : Bool :=
  match a.pending with
  | some p => epochAtOrBehind p.target first
  | none => false

/-- The bank switch: the staged records become active under V, and the staged bank a copy of the active one (R48). -/
def switchBanks (a : Align) : Align :=
  match a.pending with
  | some p =>
    let b := { a.staged with tag := p.version }
    { a with active := b, staged := b, pending := none }
  | none => a

/-- The words of the carriers whose KEY line is released follow C of the active bank (R38, R48). -/
def refreshWords (s : State) : State :=
  s.setCarriers (s.carriers.map fun c k => if keyLine k.key then k else { k with word := restWord c s })

/-- TABLE_ROLL (R45, R48, R56). -/
def tableRoll (s : State) : State :=
  match rollEpoch s with
  | some first =>
    let a := { s.align with delays := s.align.delays.map fun _ d => takeDelay d, lastRoll := some s.now }
    if switchDue first a then refreshWords (s.setAlign (switchBanks a)) else s.setAlign a
  | none => s

/-! ### The meanings -/

def execLoadAlign (f : RxFrame) (s : State) : Host.Outcome State Fault Refusal :=
  .next (receiveUp kindLoadAlign (takeRequest 11 ownerLoadAlign) f s)

def execCommitAlign (f : RxFrame) (s : State) : Host.Outcome State Fault Refusal :=
  .next (receiveUp kindCommitAlign (takeRequest 6 ownerCommitAlign) f s)

def execReadAlign (f : RxFrame) (s : State) : Host.Outcome State Fault Refusal :=
  .next (receiveUp kindReadAlign (takeRequest 4 ownerReadAlign) f s)

def execTableRoll (s : State) : Host.Outcome State Fault Refusal := .next (tableRoll s)

end Sys2Proof.Machine
end

