-- ==== Sys2Proof/Machine/Traffic.lean ====
section
/-! DEFINITION. The Batch Manager and the Symbol Store (file 04): headers, blocks, cancels, the advance of a current cycle,
and GUARD_TEST. -/

namespace Sys2Proof.Machine

/-! ### Headers (R63 to R69) -/

/-- The fields of a BATCH_HEADER body as carried (section 9.6.1). -/
structure HeaderFrame where
  id         : BatchId
  carrier    : Nat
  cycle      : Nat
  start      : Nat
  slots      : Nat
  group      : Nat
  priority   : Nat
  rate       : Nat
  modulation : Nat
  deriving DecidableEq, Repr

def headerFrame (body : List Byte) : HeaderFrame :=
  { id := BitVec.ofNat 16 (field body 0 2), carrier := field body 2 1, cycle := field body 3 2, start := field body 5 1
    slots := field body 6 1, group := field body 7 1, priority := field body 8 1, rate := field body 9 1
    modulation := field body 10 1 }

/-- The fields in range (R64, check 4). -/
structure HeaderFields where
  start      : Fin 32
  slots      : Nat
  group      : Fin 16
  priority   : Fin 4
  rate       : RateClass
  modulation : Modulation
  deriving DecidableEq, Repr

/-- Every field in range, or none (R64, check 4). -/
def headerFields (h : HeaderFrame) : Option HeaderFields :=
  match finOf h.start 32, finOf h.group 16, finOf h.priority 4, rateOf h.rate, modulationOf h.modulation with
  | some st, some g, some p, some r, some m =>
    if 1 ≤ h.slots && h.slots ≤ 8 then
      some { start := st, slots := h.slots, group := g, priority := p, rate := r, modulation := m }
    else none
  | _, _, _, _, _ => none

/-- The group check of the Alignment Table (R53). -/
def groupPasses (c : Carrier) (g : Fin 16) (s : State) : Bool :=
  (activeRow c g s).enabled || (s.align.pending.isSome && ((s.align.staged.records.get c).rows.get g).enabled)

/-- Check 7 fails: the start slot's decision instant does not lie after the header's tick, or its epoch has started with no
grid (R66). -/
def headerLate (c : Carrier) (n : CycleNo) (slot : Fin 32) (s : State) : Bool :=
  match s.tracker.epoch with
  | none => true
  | some e =>
    let k := firstEpoch n + BitVec.ofNat 32 (slot.val / 8)
    if k = e then
      match s.tracker.current with
      | some g => startPassed c (gridStart g (slot.val % 8)) s
      | none => true
    else if k = e + 1 then
      match s.tracker.next with
      | some g => startPassed c (gridStart g (slot.val % 8)) s
      | none => false
    else epochAtOrBehind k e

/-- The placing of a header: its resolved cycle, or TOO_EARLY or LATE (R65). -/
inductive Placing where
  | current (n : CycleNo)
  | next (n : CycleNo)
  | tooEarly
  | late
  deriving DecidableEq, Repr

/-- Check 6: d = (f − m) mod 65536 (R65). -/
def placeHeader (f : Nat) (n : CycleNo) : Placing :=
  let d := (BitVec.ofNat 16 f - BitVec.ofNat 16 n.toNat).toNat
  if d = 0 then .current n else if d = 1 then .next (n + 1) else if d ≤ 32767 then .tooEarly else .late

/-- The entry for a slot in the map of a cycle (R61). -/
def claimAt (c : Carrier) (n : CycleNo) (slot : Fin 32) (s : State) : Option BatchId :=
  let m := (s.car c).maps
  if m.label = some n then m.current.get slot
  else if m.label = some (n - 1) then m.next.get slot
  else none

/-- The claimant of a slot, with its record. -/
def claimant (c : Carrier) (n : CycleNo) (slot : Fin 32) (s : State) : Option Batch :=
  (claimAt c n slot s).bind fun id => findBatch id s

/-- The twelfth check: a claimant that the newcomer does not replace (R68). -/
def claimHolds (c : Carrier) (n : CycleNo) (h : HeaderFields) (s : State) : Bool :=
  match claimant c n h.start s with
  | some b => h.priority ≤ b.priority && (s.par c).claimMode = .strict
  | none => false

/-- The verdict on a header. -/
inductive Verdict where
  | refused (r : RefuseReason)
  | accepted (h : HeaderFields) (n : CycleNo)
  deriving DecidableEq, Repr

/-- Checks 8 to 12 (R66, R67, R68). -/
def judgeClaim (id : BatchId) (c : Carrier) (h : HeaderFields) (n : CycleNo) (s : State) : Verdict :=
  if 32 < h.start.val + h.slots then .refused .span
  else if (s.par c).markerSlot = some h.start then .refused .slotReserved
  else if (findBatch id s).isSome then .refused .duplicate
  else if Config.tableSize ≤ s.batches.length then .refused .tableFull
  else if claimHolds c n h s then .refused .claimed
  else .accepted h n

/-- Checks 5 to 7, with the fields in range (R64, R65, R66). -/
def judgePlace (f : HeaderFrame) (c : Carrier) (h : HeaderFields) (s : State) : Verdict :=
  if !groupPasses c h.group s then .refused .notInGroup
  else
    match currentCycle c s with
    | none => .refused .noTiming
    | some m =>
      match placeHeader f.cycle m with
      | .tooEarly => .refused .tooEarly
      | .late => .refused .late
      | .current n => if headerLate c n h.start s then .refused .late else judgeClaim f.id c h n s
      | .next n => judgeClaim f.id c h n s

/-- The twelve checks in order: the first that fails refuses (R63 to R68). -/
def judgeHeader (f : HeaderFrame) (c : Carrier) (s : State) : Verdict :=
  if s.mgmt.service ≠ .serving then .refused .notServing
  else if !timingAvailable s then .refused .noTiming
  else if !(s.par c).enabled then .refused .carrierOff
  else
    match headerFields f with
    | none => .refused .badField
    | some h => judgePlace f c h s

/-- A new record (R69). -/
def newBatch (id : BatchId) (c : Carrier) (h : HeaderFields) (n : CycleNo) : Batch :=
  { id := id, carrier := c, cycle := n, start := h.start, slots := h.slots, group := h.group, priority := h.priority
    rate := h.rate, modulation := h.modulation, blocks := List.replicate (h.slots * h.rate.blocks) none, last := none
    nextBlock := 0, malformed := false, starved := false, cancelPending := false, completion := none, state := .pending }

/-- A claim placed in the map of its cycle (R61, R69). -/
def placeClaim (id : BatchId) (n : CycleNo) (slot : Fin 32) (m : ClaimMaps) : ClaimMaps :=
  if m.label = some n then { m with current := m.current.set slot.val (some id) slot.isLt }
  else { m with next := m.next.set slot.val (some id) slot.isLt }

/-- The claimant a newcomer replaces ends REPLACED (R68). -/
def replaceClaimant (c : Carrier) (n : CycleNo) (slot : Fin 32) (s : State) : State :=
  match claimant c n slot s with
  | some b => endBatch b.id .replaced s
  | none => s

/-- An accepted header (R68, R69): the claimant it displaces ends, the maps stand for the current cycle (log 16), the record
is created, the claim placed, and a carrier in STANDBY wakes. -/
def acceptHeader (id : BatchId) (c : Carrier) (h : HeaderFields) (n : CycleNo) (s : State) : State :=
  let t := addBatch (newBatch id c h n) (bringMaps c (replaceClaimant c n h.start s))
  wakeTrigger c (t.modCar c fun k => { k with maps := placeClaim id n h.start k.maps })

/-- BATCH_HEADER (R63). -/
def ownerHeader (body : List Byte) (s : State) : State :=
  let f := headerFrame body
  match carrierOf f.carrier with
  | none => countUnmatched .batchHeader s
  | some c =>
    match judgeHeader f c s with
    | .refused r => countRefused c r s
    | .accepted h n => acceptHeader f.id c h n s

/-! ### Blocks (R70 to R73) -/

/-- The fields of a BATCH_BLOCK body (section 9.6.1, R161). -/
structure BlockFrame where
  id    : BatchId
  index : Nat
  last  : Bool
  valid : Nat
  codes : BitVec 80
  deriving DecidableEq, Repr

def blockFrame (body : List Byte) : BlockFrame :=
  { id := BitVec.ofNat 16 (field body 0 2), index := field body 2 1, last := field body 3 1 % 2 = 1
    valid := field body 4 1, codes := BitVec.ofNat 80 (field body 5 10) }

/-- The position holds a store block. -/
def Batch.holds (b : Batch) (i : Nat) : Bool := (b.blocks.getD i none).isSome

/-- A position above `i` holds a block (R70). -/
def Batch.holdsAbove (b : Batch) (i : Nat) : Bool := (b.blocks.drop (i + 1)).any fun x => x.isSome

/-- A valid count in 1–40 (R70). -/
def validCount (n : Nat) : Bool := 1 ≤ n && n ≤ 40

/-- Case 2 of R70: malformed. -/
def blockMalformed (b : Batch) (f : BlockFrame) : Bool :=
  b.slots * b.rate.blocks ≤ f.index ||
    (match b.last with
     | some l => l.index < f.index || (f.last && f.index ≠ l.index)
     | none => false) ||
    (f.last && !validCount f.valid) || (f.last && b.holdsAbove f.index)

/-- The last index and last count recorded from a LAST flag, where absent (R70, R71). -/
def recordLast (f : BlockFrame) (b : Batch) : Batch :=
  if f.last && b.last.isNone then { b with last := some { index := f.index, count := f.valid } } else b

/-- A PENDING batch whose positions 0 to last index are all held becomes COMPLETE (R73). -/
def complete (now : Tick) (b : Batch) : Batch :=
  if b.state = .pending && b.filled then { b with state := .complete, completion := some now } else b

/-- BATCH_BLOCK (R70 to R73). -/
def ownerBlock (body : List Byte) (s : State) : State :=
  let f := blockFrame body
  match findBatch f.id s with
  | none => countUnmatched .batchBlock s
  | some b =>
    if blockMalformed b f then countDiscard b.carrier (modBatch f.id (fun b => { b with malformed := true }) s)
    else if b.holds f.index then
      countDiscard b.carrier (modBatch f.id (fun b => complete s.now (recordLast f b)) s)
    else
      match lowestFree s.store.cells 0 with
      | none => countDiscard b.carrier (modBatch f.id (fun b => { b with starved := true }) s)
      | some n =>
        modBatch f.id (fun b => complete s.now (recordLast f { b with blocks := b.blocks.set f.index (some n) }))
          (allocate n f.id f.index f.codes s)

/-! ### Cancels (R75, R76, R107) -/

/-- CANCEL by the batch's state (R75, R76, R107): an ending of a SUSPENDED or incoming batch assigns CANCELLED (R100). -/
def ownerCancel (body : List Byte) (s : State) : State :=
  let id := BitVec.ofNat 16 (field body 0 2)
  match findBatch id s with
  | none => countUnmatched .cancel s
  | some b =>
    match b.state with
    | .onAir => modBatch id (fun b => { b with cancelPending := true }) s
    | .suspended => endBatch id .cancelled (assignByRun b.carrier .cancelled id s)
    | .pending | .complete =>
      if (s.car b.carrier).sched.incoming = some id then endBatch id .cancelled (assignByRun b.carrier .cancelled id s)
      else endBatch id .cancelled s

/-! ### GUARD_TEST (R84) -/

/-- GUARD_TEST: the named carrier's test becomes armed (R84). -/
def ownerGuardTest (body : List Byte) (s : State) : Answer :=
  match carrierOf (field body 0 1) with
  | none => Answer.refuse .badArgument s
  | some c => { code := .ok, content := [], state := s.modCar c fun k => { k with guardArmed := true } }

/-! ### The meanings -/

def execBatchHeader (f : RxFrame) (s : State) : Host.Outcome State Fault Refusal :=
  .next (receiveUp kindBatchHeader (takeTraffic .batchHeader 11 ownerHeader) f s)

def execBatchBlock (f : RxFrame) (s : State) : Host.Outcome State Fault Refusal :=
  .next (receiveUp kindBatchBlock (takeTraffic .batchBlock 15 ownerBlock) f s)

def execCancel (f : RxFrame) (s : State) : Host.Outcome State Fault Refusal :=
  .next (receiveUp kindCancel (takeTraffic .cancel 2 ownerCancel) f s)

def execGuardTest (f : RxFrame) (s : State) : Host.Outcome State Fault Refusal :=
  .next (receiveUp kindGuardTest (takeRequest 1 ownerGuardTest) f s)

end Sys2Proof.Machine
end

