-- ==== Sys2Proof/Machine/Slots.lean ====
section
/-! DEFINITION. The Slot Scheduler (file 05): decision instants, the decision steps, runs and keying of a program, the end of
a slot, the advance of the current cycle, and SCHEDULE. -/

namespace Sys2Proof.Machine

/-! ### Decision instants (R22, R23, R86) -/

/-- The numbered slots that a decision may come for: positions 1 to 7 of the current epoch under its number, and position 0
of the next under the number it is expected to take (R22, R23). -/
def candidateSlots (s : State) : List SlotRef :=
  match s.tracker.epoch with
  | none => []
  | some e =>
    (match s.tracker.current with
     | some g => [slotAt e 1 g, slotAt e 2 g, slotAt e 3 g, slotAt e 4 g, slotAt e 5 g, slotAt e 6 g, slotAt e 7 g]
     | none => []) ++
    (match s.tracker.next with
     | some g => [slotAt (e + 1) 0 g]
     | none => [])

/-- A slot neither decided nor passed over (R86, log 17). -/
def unsettled (c : Carrier) (sl : SlotRef) (s : State) : Bool := !startSettled c (slotStart sl) s

/-- The slot of carrier `c` whose decision instant is this tick (R86). -/
def dueSlot (c : Carrier) (s : State) : Option SlotRef :=
  if (s.par c).enabled && timingAvailable s then
    (candidateSlots s).find? fun sl => s.now = decisionInstant (slotStart sl) (s.par c).lead && unsettled c sl s
  else none

/-! ### The on-air batch and the stack (R92 to R97) -/

/-- The on-air batch's record. -/
def onAirBatch (c : Carrier) (s : State) : Option Batch := (s.car c).sched.onAir.bind fun id => findBatch id s

/-- The batch's group row is enabled in the active bank (R54). -/
def rowEnabled (b : Batch) (s : State) : Bool := (activeRow b.carrier b.group s).enabled

/-- DISPLACED for the entry a full stack loses: the oldest (R94). -/
def displaceOldest (c : Carrier) (sl : SlotRef) (s : State) : State :=
  if Config.stackDepth ≤ (s.car c).sched.stack.length then
    match (s.car c).sched.stack.getLast? with
    | some id => endBatch id .displaced (assignCode c sl .displaced (some id) s)
    | none => s
  else s

/-- A push: the on-air batch goes on top of the stack and is SUSPENDED (R94). -/
def pushOnAir (c : Carrier) (sl : SlotRef) (id : BatchId) (s : State) : State :=
  modSched c (fun x => { x with onAir := none, stop := none, stack := id :: x.stack })
    (modBatch id (fun b => { b with state := .suspended }) (displaceOldest c sl s))

/-- The code and the end reason of a stop (R92). -/
def StopReason.code : StopReason → OutcomeCode
  | .cancelled => .cancelled
  | .notInGroup => .notInGroup

def StopReason.reason : StopReason → EndReason
  | .cancelled => .cancelled
  | .notInGroup => .notInGroup

/-- A stop: the reason is assigned to the slot being decided; the ending waits for the payload end of a run of the batch, and
takes place at once where there is none (R92). -/
def stopBatch (c : Carrier) (sl : SlotRef) (id : BatchId) (why : StopReason) (s : State) : State :=
  let s := assignCode c sl why.code (some id) s
  if (s.car c).timer.runs.any fun r => r.names id then modSched c (fun x => { x with stop := some why }) s
  else endBatch id why.reason s

/-! ### The decision steps (R88 to R93) -/

/-- A claimant dropped by the decision ends with its reason, assigned to the slot (R88 to R91). -/
def dropClaimant (c : Carrier) (sl : SlotRef) (b : Batch) (code : OutcomeCode) (why : EndReason) (s : State) : State :=
  endBatch b.id why (assignCode c sl code (some b.id) s)

/-- A gate holds: the claimant, if any, ends; the gate's code is assigned with its id or none (R88, R89). -/
def gateHolds (c : Carrier) (sl : SlotRef) (b : Option Batch) (code : OutcomeCode) (why : EndReason) (s : State) : State :=
  match b with
  | some b => dropClaimant c sl b code why s
  | none => assignCode c sl code none s

/-- The on-air batch at a marker step: pushed, or stopped CANCELLED, or left to finish (R90). -/
def marksOnAir (c : Carrier) (sl : SlotRef) (s : State) : State :=
  match onAirBatch c s with
  | some a =>
    if a.remaining then
      if a.cancelPending then stopBatch c sl a.id .cancelled s else pushOnAir c sl a.id s
    else s
  | none => s

/-- Step 3, the marker step: the oldest bit gives MARKER_ON or MARKER_GAP (R90, R134, R136). -/
def markerStep (c : Carrier) (sl : SlotRef) (s : State) : Program × State :=
  let s := marksOnAir c sl s
  let bit := (s.car c).marker.headD false
  let s := s.modCar c fun k => { k with marker := k.marker.tail }
  if bit then (.markerOn, s) else (.markerGap, assignCode c sl .markerGap none s)

/-- The on-air batch that a claimant must outrank: blocks remaining, CANCEL_PENDING clear (R91). -/
def rival (c : Carrier) (s : State) : Option Batch :=
  match onAirBatch c s with
  | some a => if a.remaining && !a.cancelPending then some a else none
  | none => none

/-- Step 4, the claimant (R91). -/
def claimantStep (c : Carrier) (sl : SlotRef) (b : Option Batch) (s : State) : Option Program × State :=
  match b with
  | none => (none, s)
  | some b =>
    if b.state ≠ .complete then
      if b.malformed then (none, dropClaimant c sl b .malformed .malformed s)
      else (none, dropClaimant c sl b .incomplete .incomplete s)
    else if !rowEnabled b s then (none, dropClaimant c sl b .notInGroup .notInGroup s)
    else
      match rival c s with
      | some a =>
        if a.priority < b.priority then (some (.start b.id), pushOnAir c sl a.id s)
        else (none, dropClaimant c sl b .overlap .overlap s)
      | none => (some (.start b.id), s)

/-- Step 5, continuation: the on-air batch is finished, stopped or continued (R92). -/
def continueStep (c : Carrier) (sl : SlotRef) (fixed : Option Program) (s : State) : Option Program × State :=
  match onAirBatch c s with
  | none => (fixed, s)
  | some a =>
    if !a.remaining then (fixed, s)
    else if a.cancelPending then (fixed, stopBatch c sl a.id .cancelled s)
    else if !rowEnabled a s then (fixed, stopBatch c sl a.id .notInGroup s)
    else (some (fixed.getD (.cont a.id)), s)

/-- Step 6, resume: the first entry from the top whose row is enabled; entries above it end NOT_IN_GROUP (R93). -/
def resumeStep (c : Carrier) (sl : SlotRef) : List BatchId → State → Option Program × State
  | [], s => (none, s)
  | id :: rest, s =>
    match findBatch id s with
    | some t =>
      if rowEnabled t s then (some (.resume id), s)
      else resumeStep c sl rest (endBatch id .notInGroup (assignCode c sl .notInGroup (some id) s))
    | none => resumeStep c sl rest s

/-- Steps 4 to 7 (R91 to R93): QUIET is assigned where nothing fixes a program. -/
def trafficSteps (c : Carrier) (sl : SlotRef) (b : Option Batch) (s : State) : Program × State :=
  let (p4, s) := claimantStep c sl b s
  let (p5, s) := continueStep c sl p4 s
  match p5 with
  | some p => (p, s)
  | none =>
    let (p6, s) := resumeStep c sl (s.car c).sched.stack s
    match p6 with
    | some p => (p, s)
    | none => (.quiet, assignCode c sl .quiet none s)

/-- The slot is the carrier's marker slot and its Marker Unit is BUSY (R90). -/
def markerDue (c : Carrier) (sl : SlotRef) (s : State) : Bool :=
  (s.par c).markerSlot = some sl.index && !(s.car c).marker.isEmpty

/-- The decision steps in order (R87 to R93). -/
def decisionSteps (c : Carrier) (sl : SlotRef) (b : Option Batch) (s : State) : Program × State :=
  if probeOn c s then (.quiet, gateHolds c sl b .measuring .measuring s)
  else if (s.car c).power ≠ .active then (.quiet, gateHolds c sl b .waking .waking s)
  else if markerDue c sl s then markerStep c sl s
  else trafficSteps c sl b s

/-! ### Runs (R26 to R32, R118, R135) -/

/-- The raw launch offset of a program on a group row (R26). -/
def slotOffset (c : Carrier) (g : Fin 16) (s : State) : Int :=
  rawOffset (activeRow c g s).offset (s.align.delays.get c).value

/-- The run of an on-air program (R26 to R32). -/
def formRun (c : Carrier) (sl : SlotRef) (g : Fin 16) (rate : RateClass) (content : RunContent) (s : State) : Run :=
  { slot := sl
    launch := fxAdd (slotStart sl) (offsetFx (launchOffset (slotOffset c g s)))
    tfx := symbolStep sl.grid.sum8 rate.perSecond, symbols := rate.symbols, pos := 0, words := activeWords c s
    content := content, ended := false }

/-- A run becomes active: the accumulator is loaded with its launch instant and the step with its Tfx (R30). -/
def LaunchTimer.activate (r : Run) (t : LaunchTimer) : LaunchTimer :=
  { t with active := some { r with pos := 0 }, acc := r.launch, step := r.tfx }

/-- A formed run becomes active, or is armed behind an active run (R32). -/
def placeRun (r : Run) (t : LaunchTimer) : LaunchTimer :=
  match t.active with
  | none => t.activate r
  | some _ => { t with armed := some r }

/-- The KEY line is asserted for a run that opens an on-air period: centre word of its word set, opening run, presence run
broken (R113, R125). -/
def openPeriod (r : Run) (k : CarrierState) : CarrierState :=
  { k with key := .keyed, word := centreWord r.words
           monitor := { k.monitor with opening := some r.slot, presence := none } }

/-- The key-up instant of a run: its launch tick less the lead (R112). -/
def keyUpInstant (r : Run) (lead : Nat) : Tick := tickSub (fxTick r.launch) (lead * Config.msTicks)

/-- Key Control receives an on-air program and its run (R112). -/
def keyProgram (now : Tick) (lead : Nat) (r : Run) (k : CarrierState) : CarrierState :=
  match k.key with
  | .released =>
    if tickReached now (keyUpInstant r lead) then openPeriod r k else { k with key := .pending (keyUpInstant r lead) }
  | .pending _ => k
  | .keyed => k
  | .tail _ => { k with key := .keyed }
  | .probe => k

/-- An on-air program is handed to the Launch Timer and to Key Control; a clamped offset latches (R27, R32, R112). -/
def launchRun (c : Carrier) (sl : SlotRef) (g : Fin 16) (rate : RateClass) (content : RunContent) (s : State) : State :=
  let r := formRun c sl g rate content s
  (latchIf (offsetClamped (slotOffset c g s)) (.offsetClamped c) s).modCar c fun k =>
    keyProgram s.now (s.par c).lead r { k with timer := placeRun r k.timer }

/-! ### Margins (R98, R99) -/

/-- The margin of a START: the decision instant less the completion instant, in ticks (R98). -/
def startMargin (b : Batch) (s : State) : Nat := tickSpan s.now (b.completion.getD s.now)

/-- The margin of a START is measured (R98, R99). -/
def measureMargin (c : Carrier) (b : Batch) (s : State) : State :=
  let m := startMargin b s
  let t := modSched c (fun x => { x with lastMargin := some m }) s
  if m < (s.par c).warn * Config.msTicks then
    countLowMargin c (modSched c (fun x => { x with goodStarts := 0 }) (latch (.marginLow c) t))
  else if (s.car c).sched.goodStarts + 1 = Config.goodStartLimit then
    let t := modSched c (fun x => { x with goodStarts := 0 }) t
    if s.mgmt.params.autoClear then clearAlarmSet (Alarm.marginLow c).mask t else t
  else modSched c (fun x => { x with goodStarts := x.goodStarts + 1 }) t

/-! ### The program taken (R87, R95, R96) -/

/-- The blocks a batch emits in a slot it is programmed for (R95). -/
def slotBlocks (b : Batch) : Nat := min b.rate.blocks b.remainingCount

/-- A batch program's run: next block is advanced past the blocks of the slot, and the run formed (R87, R95, R118). -/
def programBatch (c : Carrier) (sl : SlotRef) (b : Batch) (s : State) : State :=
  let n := slotBlocks b
  let content := RunContent.batch b.id b.nextBlock n b.modulation (b.last.getD { index := 0, count := 0 })
  launchRun c sl b.group b.rate content (modBatch b.id (fun b => { b with nextBlock := b.nextBlock + n }) s)

/-- A START or RESUME goes on air at once where the carrier has no on-air batch, else it is the incoming batch (R93, R96). -/
def bringOnAir (c : Carrier) (id : BatchId) (s : State) : State :=
  handOver c (modSched c (fun x => { x with incoming := some id }) s)

/-- What a program does when it is fixed (R87). -/
def takeProgram (c : Carrier) (sl : SlotRef) (p : Program) (s : State) : State :=
  match p with
  | .start id =>
    match findBatch id s with
    | some b => programBatch c sl b (bringOnAir c id (measureMargin c b s))
    | none => s
  | .resume id =>
    match findBatch id s with
    | some b => programBatch c sl b (bringOnAir c id s)
    | none => s
  | .cont id =>
    match findBatch id s with
    | some b => programBatch c sl b s
    | none => s
  | .markerOn => launchRun c sl (s.par c).markerGroup .a .marker s
  | .markerGap | .quiet => s

/-- The claim of a slot consumed by its decision (R61, R87). -/
def consumeClaim (c : Carrier) (sl : SlotRef) (s : State) : State :=
  let m := (s.car c).maps
  if m.label = some sl.cycle then setMaps c { m with current := m.current.set sl.index.val none sl.index.isLt } s else s

/-- The claimant of a slot in the current map (R91). -/
def slotClaimant (c : Carrier) (sl : SlotRef) (s : State) : Option Batch :=
  if (s.car c).maps.label = some sl.cycle then
    ((s.car c).maps.current.get sl.index).bind fun id => findBatch id s
  else none

/-- The slot joins the open slots, and is settled (R86, R87). -/
def openSlot (c : Carrier) (sl : SlotRef) (s : State) : State :=
  modSched c (fun x =>
    { x with openSlots := x.openSlots ++ [{ slot := sl, program := .quiet, held := none }], settled := some (slotStart sl) }) s

/-- The program of an open slot set. -/
def setProgram (c : Carrier) (sl : SlotRef) (p : Program) (s : State) : State :=
  modSched c (fun x =>
    { x with openSlots := x.openSlots.map fun o => if o.slot = sl then { o with program := p } else o }) s

/-- The decision of one slot (R87): maps, claim, steps, program. -/
def decideSlot (c : Carrier) (sl : SlotRef) (s : State) : State :=
  let s := bringMaps c s
  let b := slotClaimant c sl s
  let (p, s) := decisionSteps c sl b (openSlot c sl (consumeClaim c sl s))
  takeProgram c sl p (setProgram c sl p s)

/-- SLOT_DECISION (R86, R87). -/
def slotDecision (c : Carrier) (s : State) : State :=
  match dueSlot c s with
  | some sl => decideSlot c sl s
  | none => s

/-- CURRENT_CYCLE_ADVANCE (R62): the maps of a carrier roll where its current cycle has advanced and no slot-0 decision of
this tick does it. -/
def currentCycleAdvance (c : Carrier) (s : State) : State :=
  match dueSlot c s with
  | some sl => if sl.index = 0 then s else bringMaps c s
  | none => bringMaps c s

/-! ### The end of a slot (R24, R102) -/

/-- SLOT_END (R102): the open slots that end at this tick are recorded. -/
def slotEnd (c : Carrier) (s : State) : State :=
  recordSlots c (fun o => slotEndTick s.tracker o.slot = some s.now) s

/-! ### SCHEDULE (R109, R171) -/

/-- The status of the on-air batch: 0 none, 1 continuing, 2 finished, 3 stopped (R171). -/
def onAirStatus (c : Carrier) (s : State) : Nat :=
  match onAirBatch c s with
  | none => 0
  | some a => if (s.car c).sched.stop.isSome then 3 else if a.remaining then 1 else 2

/-- An id, carried as 0 when absent. -/
def idOctets (id : Option BatchId) : List Byte := octets 2 ((id.map BitVec.toNat).getD 0)

/-- A code octet: 0 for an empty entry, bit 7 set when a batch id is present; then the id (R171). DESIGN CHOICE (log 44): an
id that is not present is 0. -/
def codeOctets (o : Option SlotOutcome) : List Byte :=
  match o with
  | none => [0, 0, 0]
  | some x => octets 1 (codeNumber x.code + (if x.id.isSome then 128 else 0)) ++ idOctets x.id

/-- A list of octet groups cut or padded with zero groups to `n` groups of `len` octets. R171 says so of the stack; DESIGN
CHOICE (log 44): of the open slots too. -/
def padGroups (n len : Nat) (gs : List (List Byte)) : List Byte :=
  (gs.take n).flatten ++ List.replicate ((n - gs.length) * len) 0

/-- A stack entry: id and resume position (R171). -/
def stackEntry (s : State) (id : BatchId) : List Byte :=
  octets 2 id.toNat ++ octets 1 (((findBatch id s).map Batch.nextBlock).getD 0)

/-- An open slot: index, program, held code and id (R171). -/
def openEntry (o : OpenSlot) : List Byte := octets 1 o.slot.index.val ++ octets 1 (programOctet o.program) ++ codeOctets o.held

/-- Where a batch's claim stands: 0 none, 1 current map, 2 next map (R171). -/
def claimPlace (m : ClaimMaps) (id : BatchId) : Nat :=
  if (claimIds m.current).contains id then 1 else if (claimIds m.next).contains id then 2 else 0

/-- A batch record (R171). -/
def recordEntry (m : ClaimMaps) (b : Batch) : List Byte :=
  octets 2 b.id.toNat ++ octets 1 (batchStateOctet b.state) ++ octets 1 b.start.val ++ octets 1 (claimPlace m b.id) ++
    octets 1 b.priority.val ++ octets 1 (b.blocks.filter Option.isSome).length ++
    octets 1 ((b.last.map LastMark.index).getD 255) ++ octets 1 b.nextBlock ++
    octets 1 ((if b.malformed then 1 else 0) + (if b.starved then 2 else 0) + (if b.cancelPending then 4 else 0))

/-- The schedule of a carrier (R171). DESIGN CHOICE (log 44): an item that is absent is sent as 0. -/
def scheduleContent (c : Carrier) (s : State) : List Byte :=
  let x := (s.car c).sched
  let bs := s.batches.filter fun b => b.carrier = c
  octets 1 (carrierNumber c) ++
    octets 1 (onAirStatus c s) ++ idOctets x.onAir ++ octets 1 (((onAirBatch c s).map Batch.nextBlock).getD 0) ++
    boolOctet x.incoming.isSome ++ idOctets x.incoming ++
    octets 1 x.stack.length ++ padGroups 4 3 (x.stack.map (stackEntry s)) ++
    octets 1 x.openSlots.length ++ padGroups 2 5 (x.openSlots.map openEntry) ++
    optOctets 4 x.lastMargin ++ octets 1 x.goodStarts ++
    optOctets 4 (x.outcomes.label.map BitVec.toNat) ++ x.outcomes.entries.toList.flatMap codeOctets ++
    octets 1 bs.length ++ ((bs.take 10).map (recordEntry (s.car c).maps)).flatten

/-- SCHEDULE (R109, R171). -/
def ownerSchedule (body : List Byte) (s : State) : Answer :=
  match carrierOf (field body 0 1) with
  | none => Answer.refuse .badArgument s
  | some c => { code := .ok, content := scheduleContent c s, state := s }

/-! ### The meanings -/

def execSlotDecision (c : Carrier) (s : State) : Host.Outcome State Fault Refusal := .next (slotDecision c s)

def execCurrentCycleAdvance (c : Carrier) (s : State) : Host.Outcome State Fault Refusal := .next (currentCycleAdvance c s)

def execSlotEnd (c : Carrier) (s : State) : Host.Outcome State Fault Refusal := .next (slotEnd c s)

def execSchedule (f : RxFrame) (s : State) : Host.Outcome State Fault Refusal :=
  .next (receiveUp kindSchedule (takeRequest 1 ownerSchedule) f s)

end Sys2Proof.Machine
end

