-- ==== Sys2Proof/Machine/Keying.lean ====
section
/-! DEFINITION. Symbols, payload ends, keying, power states and the Carrier Monitor (files 02, 04 and 06): KEY_UP,
SYMBOL_EMIT, PAYLOAD_END, TAIL_EXPIRY, WAKE_EXPIRY, RF_SENSE_CHANGE, STUCK_CARRIER and STANDBY. -/

namespace Sys2Proof.Machine

/-! ### KEY_UP (R113) -/

/-- KEY_UP (R113): the waiting run is the active one. -/
def keyUp (c : Carrier) (s : State) : State :=
  if (s.car c).key = .pending s.now then
    s.modCar c fun k =>
      match k.timer.active with
      | some r => openPeriod r k
      | none => { k with key := .keyed, monitor := { k.monitor with presence := none } }
  else s

/-! ### SYMBOL_EMIT (R30, R35, R82 to R84, R118) -/

/-- The place of a symbol position in the blocks of a run: the index of the block and the place in it; none where the run
draws nothing from the store (R118, R119). -/
def Run.blockPlace (r : Run) : Option (BatchId × Nat × Nat) :=
  match r.content with
  | .batch id first count _ _ => if !r.ended && r.pos / 40 < count then some (id, first + r.pos / 40, r.pos % 40) else none
  | .marker => none

/-- The store block at a position of a batch's block list. -/
def blockNumber (id : BatchId) (index : Nat) (s : State) : Option Nat :=
  (findBatch id s).bind fun b => b.blocks.getD index none

/-- The tag that stands at a position is HELD for this batch and index (R82). -/
def tagMatches (id : BatchId) (index : Nat) (s : State) : Bool :=
  match blockNumber id index s with
  | some n => (readBlock n s).tag = .held id index
  | none => false

/-- The level of a run's next symbol position (R35, R74, R118, R119, R135). -/
def symbolLevel (r : Run) (s : State) : Int :=
  match r.content, r.blockPlace with
  | .marker, _ => markerLevel r.pos
  | .batch _ _ _ m last, some (id, index, place) =>
    if index = last.index && last.count ≤ place then 0
    else
      match blockNumber id index s with
      | some n => levelOf m (codeAt (readBlock n s).codes place)
      | none => 0
  | .batch _ _ _ _ _, none => 0

/-- The word of a symbol position is driven, and a clamped one counts (R37, R38). -/
def driveSymbol (c : Carrier) (w : WordSet) (v : Int) (s : State) : State :=
  let t := s.modCar c fun k => { k with word := wordOf w v }
  if wordClamped w v then countClampedWord c t else t

/-- The NO_CARRIER check at symbol 0 of the opening run (R124); its tick is noted for a change of RF_SENSE that this tick still
brings (log 45). -/
def checkCarrier (c : Carrier) (r : Run) (s : State) : State :=
  if r.pos = 0 && (s.car c).monitor.opening = some r.slot then
    latchIf (!(s.car c).monitor.rfSense) (.noCarrier c)
      (s.modCar c fun k => { k with monitor := { k.monitor with
        opening := none, checked := some { tick := s.now, wasClear := !latched (.noCarrier c) s } } })
  else s

/-- The run's position and the accumulator advance; after its last symbol the run is the finishing run and the armed run
becomes active (R30 to R32). -/
def advanceTimer (r : Run) (t : LaunchTimer) : LaunchTimer :=
  let q := { r with pos := r.pos + 1 }
  let acc := fxAdd t.acc t.step
  if q.pos < q.symbols then { t with active := some q, acc := acc }
  else
    match t.armed with
    | some a => { t with finishing := some q, armed := none }.activate a
    | none => { t with active := none, finishing := some q, acc := acc }

/-- A guard fault that is not a test fault: GUARD_FAULT for the run's slot, the immediate release, the batch ends CUT, an
incoming batch may be handed over, STORE_GUARD latches (R83, R96, R97, R106). -/
def guardFault (c : Carrier) (r : Run) (id : BatchId) (s : State) : State :=
  latchGuardReal c
    (handOver c (endBatch id .cut (releaseNow c (some r.slot) (assignCode c r.slot .guardFault (some id) s))))

/-- The test fault: STORE_GUARD latches by R84 and the test is disarmed. -/
def testFault (c : Carrier) (s : State) : State :=
  latchGuardTest c (s.modCar c fun k => { k with guardArmed := false })

/-- SPENT is written into the tag of a block (R82). -/
def spendBlock (id : BatchId) (index : Nat) (s : State) : State :=
  match blockNumber id index s with
  | some n => writeTag n .spent s
  | none => s

/-- The read-back finds SPENT (R82). -/
def readBackSpent (id : BatchId) (index : Nat) (s : State) : Bool :=
  match blockNumber id index s with
  | some n => (readBlock n s).tag = .spent
  | none => false

/-- The word of the next symbol position is driven, with the checks of symbol 0 and of a clamped word. -/
def emitWord (c : Carrier) (r : Run) (s : State) : State := driveSymbol c r.words (symbolLevel r s) (checkCarrier c r s)

/-- The run moves on to its next position. -/
def advanceRun (c : Carrier) (r : Run) (s : State) : State := modTimer c (advanceTimer r) s

/-- After the word of a block's 40th position: the test fault, or SPENT and the read-back (R82 to R84). -/
def closeBlock (c : Carrier) (r : Run) (id : BatchId) (index : Nat) (s : State) : State :=
  if (s.car c).guardArmed then advanceRun c r (testFault c s)
  else if readBackSpent id index (spendBlock id index s) then advanceRun c r (spendBlock id index s)
  else guardFault c r id (spendBlock id index s)

/-- One symbol of a run (R30, R82, R118). -/
def emitSymbol (c : Carrier) (r : Run) (s : State) : State :=
  match r.blockPlace with
  | none => advanceRun c r (emitWord c r s)
  | some (id, index, place) =>
    if place = 0 && !tagMatches id index s then guardFault c r id s
    else if place = 39 then closeBlock c r id index (emitWord c r s)
    else advanceRun c r (emitWord c r s)

/-- In PENDING symbol 0 follows the key-up (R114): with a lead of 0 the two fall at one tick, and symbol 0 takes the key-up
first where KEY_UP has not come yet (DEDUCED, log 36). -/
def keyFirst (c : Carrier) (r : Run) (s : State) : State := if r.pos = 0 then keyUp c s else s

/-- SYMBOL_EMIT (R30, R114): the tick count has reached the accumulator's tick. DESIGN CHOICE (log 47): at a lead of 0 a symbol 0
taken between its key-up and an immediate release of the same tick is emitted and checked (R113). -/
def symbolEmit (c : Carrier) (s : State) : State :=
  match (s.car c).timer.active with
  | some r => if s.now = fxTick (s.car c).timer.acc then emitSymbol c r (keyFirst c r s) else s
  | none => s

/-! ### PAYLOAD_END (R31, R92, R96, R100, R114) -/

/-- A later run has emitted its symbol 0 (R34). -/
def laterSymbol (t : LaunchTimer) : Bool :=
  match t.active with
  | some r => 0 < r.pos
  | none => false

/-- After a payload end the word is the run's centre word while the key stays asserted, unless a later run already emits
(R34, R38, log 25). -/
def centreAfter (r : Run) (k : CarrierState) : CarrierState :=
  if keyLine k.key && !laterSymbol k.timer then { k with word := centreWord r.words } else k

/-- The codes and endings of a payload end: SENT, and the batch's end if the run held its last block or its stop waited;
MARKER_SENT; nothing for a run whose batch has ended (R31, R92, R97, R100). -/
def settleRun (c : Carrier) (r : Run) (s : State) : State :=
  match r.content with
  | .marker => assignCode c r.slot .markerSent none s
  | .batch id first count _ last =>
    if r.ended then s
    else
      let t := assignCode c r.slot .sent (some id) s
      if last.index < first + count then handOver c (endBatch id .sent t)
      else
        match (s.car c).sched.stop with
        | some why => if (s.car c).sched.onAir = some id then handOver c (endBatch id why.reason t) else t
        | none => t

/-- The tail starts, or the key is released at once where the tail is 0, if no later run is held (R114). -/
def startTail (c : Carrier) (s : State) : State :=
  if (s.car c).key = .keyed && (s.car c).timer.active.isNone && (s.car c).timer.armed.isNone then
    if (s.par c).tail = 0 then dropKey c s
    else s.modCar c fun k => { k with key := .tail (tickAdd s.now ((s.par c).tail * Config.msTicks)) }
  else s

/-- PAYLOAD_END (R31): the finishing run's payload end tick is reached. -/
def payloadEnd (c : Carrier) (s : State) : State :=
  match (s.car c).timer.finishing with
  | some r =>
    if s.now = r.payloadEnd then
      startTail c (settleRun c r ((modTimer c (fun t => { t with finishing := none }) s).modCar c (centreAfter r)))
    else s
  | none => s

/-! ### TAIL_EXPIRY, WAKE_EXPIRY (R115, R122) -/

/-- TAIL_EXPIRY (R115). -/
def tailExpiry (c : Carrier) (s : State) : State := if (s.car c).key = .tail s.now then dropKey c s else s

/-- WAKE_EXPIRY (R122). -/
def wakeExpiry (c : Carrier) (s : State) : State :=
  if (s.car c).power = .awakening s.now then s.modCar c fun k => { k with power := .active } else s

/-! ### The Carrier Monitor (R125, R126, R147) -/

/-- RF_SENSE sampled at its change: a presence run starts or is broken (R125). -/
def sampleChange (now : Tick) (present : Bool) (k : CarrierState) : CarrierState :=
  { k with monitor := { k.monitor with
      rfSense := present
      presence := if present && !keyLine k.key then some (k.monitor.presence.getD now) else none } }

/-- The watch of a QUIET check is to its end tick inclusive (R147): a check that passed at this very tick fails by RF present
at it (log 19). -/
def failLate (now : Tick) (c : Carrier) (r : ProbeRecord) : ProbeRecord :=
  if r.carrier = c && r.outcome = .pass && r.endTick = some now then { r with outcome := .fail, firstRf := some now } else r

/-- A QUIET check sees RF present, while it runs or at the tick of its end (R147). -/
def seeRf (c : Carrier) (present : Bool) (s : State) : State :=
  if present && s.probe.phase = .observe && s.probe.carrier = c && s.probe.firstRf.isNone then
    s.setProbe { s.probe with firstRf := some s.now }
  else if present then s.setProbe { s.probe with result := s.probe.result.map (failLate s.now c) }
  else s

/-- A NO_CARRIER check made at this very tick goes by the line as sampled at this tick (R1, R124): a change to absent latches
the alarm, one to present takes back what the check latched (DEDUCED, log 45). -/
def recheck (c : Carrier) (present : Bool) (s : State) : State :=
  match (s.car c).monitor.checked with
  | some k =>
    if k.tick = s.now then
      if present then (if k.wasClear then clearAlarmSet (Alarm.noCarrier c).mask s else s) else latch (.noCarrier c) s
    else s
  | none => s

/-- RF_SENSE_CHANGE (R124, R125): at the pin always; sampled but while the reference clock is lost, or before the first edge
after a reset (R126, R129). -/
def rfSenseChange (c : Carrier) (present : Bool) (s : State) : State :=
  let t := s.modCar c fun k => { k with monitor := { k.monitor with rfPin := present } }
  if s.tracker.ref = .noClock || s.firstEdge then t
  else recheck c present (seeRf c present (t.modCar c (sampleChange s.now present)))

/-- STUCK_CARRIER (R125): the presence run has reached 100 ms; it starts again. DESIGN CHOICE (log 43): where RF absent or the
KEY line breaks the run at that very tick, no rule orders the two; they are taken in queue order. -/
def stuckCarrier (c : Carrier) (s : State) : State :=
  match (s.car c).monitor.presence with
  | some t =>
    if s.now = tickAdd t Config.stuckTicks && !keyLine (s.car c).key then
      latch (.stuckCarrier c) (s.modCar c fun k => { k with monitor := { k.monitor with presence := some s.now } })
    else s
  | none => s

/-! ### STANDBY (R121) -/

/-- The conditions of STANDBY (R121). -/
def standbyAllowed (c : Carrier) (s : State) : Bool :=
  !hasRecord c s && (s.car c).key = .released && !probeOn c s && (s.car c).marker.isEmpty

/-- STANDBY (R121): the reply carries the power state after the request with every code. For a carrier octet that names no
carrier that octet is a free value (log 21). -/
def ownerStandby (body : List Byte) (s : State) : Answer :=
  match carrierOf (field body 0 1) with
  | none => { code := .badArgument, content := [Config.standbyPowerOctet (BitVec.ofNat 8 (field body 0 1))], state := s }
  | some c =>
    if standbyAllowed c s then
      { code := .ok, content := octets 1 (powerOctet .standby), state := s.modCar c fun k => { k with power := .standby } }
    else { code := .noopPending, content := octets 1 (powerOctet (s.car c).power), state := s }

/-! ### The meanings -/

def execKeyUp (c : Carrier) (s : State) : Host.Outcome State Fault Refusal := .next (keyUp c s)

def execSymbolEmit (c : Carrier) (s : State) : Host.Outcome State Fault Refusal := .next (symbolEmit c s)

def execPayloadEnd (c : Carrier) (s : State) : Host.Outcome State Fault Refusal := .next (payloadEnd c s)

def execTailExpiry (c : Carrier) (s : State) : Host.Outcome State Fault Refusal := .next (tailExpiry c s)

def execWakeExpiry (c : Carrier) (s : State) : Host.Outcome State Fault Refusal := .next (wakeExpiry c s)

def execRfSenseChange (c : Carrier) (present : Bool) (s : State) : Host.Outcome State Fault Refusal :=
  .next (rfSenseChange c present s)

def execStuckCarrier (c : Carrier) (s : State) : Host.Outcome State Fault Refusal := .next (stuckCarrier c s)

def execStandby (f : RxFrame) (s : State) : Host.Outcome State Fault Refusal :=
  .next (receiveUp kindStandby (takeRequest 1 ownerStandby) f s)

end Sys2Proof.Machine
end

