-- ==== Sys2Proof/Machine/MarkerUnit.lean ====
section
/-! DEFINITION. The Marker Unit's requests MARKER_LOAD and MARKER_CLEAR (file 07). -/

namespace Sys2Proof.Machine

/-- The bits a MARKER_LOAD carries, in order (section 9.6.2). -/
def carriedBits (body : List Byte) : List Bool := bitsOf (body.drop 2)

/-- MARKER_LOAD (R131, R132, R138): taken into a READY unit, and a wake trigger; refused MARKER_BUSY with MARKER_FAULT
latched by a BUSY one. -/
def ownerMarkerLoad (body : List Byte) (s : State) : Answer :=
  let len := field body 1 1
  match carrierOf (field body 0 1) with
  | none => Answer.refuse .badArgument s
  | some c =>
    if !(1 ≤ len && len ≤ 64 && len ≤ (carriedBits body).length) then Answer.refuse .badArgument s
    else if !(s.car c).marker.isEmpty then Answer.refuse .markerBusy (latch (.markerFault c) s)
    else
      { code := .ok, content := octets 1 len
        state := wakeTrigger c (s.modCar c fun k => { k with marker := (carriedBits body).take len }) }

/-- MARKER_CLEAR (R133): the sequence is emptied; the reply carries the number of bits discarded. -/
def ownerMarkerClear (body : List Byte) (s : State) : Answer :=
  match carrierOf (field body 0 1) with
  | none => Answer.refuse .badArgument s
  | some c =>
    { code := .ok, content := octets 1 (s.car c).marker.length, state := s.modCar c fun k => { k with marker := [] } }

def execMarkerLoad (f : RxFrame) (s : State) : Host.Outcome State Fault Refusal :=
  .next (receiveUp kindMarkerLoad (takeRequest 2 ownerMarkerLoad) f s)

def execMarkerClear (f : RxFrame) (s : State) : Host.Outcome State Fault Refusal :=
  .next (receiveUp kindMarkerClear (takeRequest 1 ownerMarkerClear) f s)

end Sys2Proof.Machine
end

