-- ==== Sys2Proof/Machine/LinkUnit.lean ====
section
/-! DEFINITION. The link's own events (file 09): sync, relays from DOWN, the repeat on DOWN, the upstream transmitter, and
requests of an unknown kind. -/

namespace Sys2Proof.Machine

/-- SYNC_WORD_MATCH (R153): a receiver in HUNT whose last 16 bits are the sync word goes to IN_FRAME; one IN_FRAME does not
look for sync. -/
def syncWordMatch (p : Port) (lastBits : BitVec 16) (s : State) : State :=
  if lastBits = Config.syncWord then
    match p with
    | .up => if s.link.rxUp = .hunt then s.setLink { s.link with rxUp := .inFrame [] } else s
    | .down => if s.link.rxDown = .hunt then s.setLink { s.link with rxDown := .inFrame [] } else s
  else s

/-- A good frame from DOWN is offered to the relay queue (R158). -/
def offerRelay (f : Frame) (s : State) : State :=
  if s.link.relay.length < Config.queueDepth then
    s.setLink (chooseIfIdle { s.link with relay := s.link.relay ++ [f] })
  else countRelayDrop s

/-- DOWN_FRAME_RELAY (R153, R158). -/
def downFrameRelay (f : Frame) (s : State) : State :=
  let s := s.setLink { s.link with rxDown := .hunt }
  if goodFrame f then offerRelay f s else countBadFrame s

/-- REPEAT_TX_START (R156): the first stored frame begins on DOWN transmit once the previous repeat has ended. -/
def repeatTxStart (s : State) : State :=
  if !s.link.repeating && !s.link.repeatStore.isEmpty then s.setLink { s.link with repeating := true } else s

/-- REPEAT_TX_END (R156): the frame leaves the repeat store. -/
def repeatTxEnd (s : State) : State :=
  if s.link.repeating then s.setLink { s.link with repeating := false, repeatStore := s.link.repeatStore.tail } else s

/-- The oldest frame of a queue. -/
def queueHead (q : QueueName) (l : Link) : Option Frame :=
  match q with
  | .own => l.own.head?
  | .relay => l.relay.head?

/-- A queue without its oldest frame. -/
def dropHead (q : QueueName) (l : Link) : Link :=
  match q with
  | .own => { l with own := l.own.tail }
  | .relay => { l with relay := l.relay.tail }

/-- The queue whose oldest frame starts: the one chosen, or else the arbiter's choice (R160). -/
def startQueue (l : Link) : Option QueueName := l.chosen.or (arbiterChoice l)

/-- UP_TX_START (R160): with the transmitter IDLE, the oldest frame of the chosen queue leaves it and is sent. -/
def upTxStart (s : State) : State :=
  match s.link.sending, startQueue s.link with
  | none, some q =>
    match queueHead q s.link with
    | some f => s.setLink { dropHead q s.link with sending := some (q, f), chosen := none }
    | none => s
  | _, _ => s

/-- The other queue (R160). -/
def otherQueue : QueueName → QueueName
  | .own => .relay
  | .relay => .own

/-- UP_TX_END (R160): the transmitter becomes IDLE, the turn names the other queue, and the arbiter chooses again
(log 11). -/
def upTxEnd (s : State) : State :=
  match s.link.sending with
  | some (q, _) => s.setLink (chooseIfIdle { s.link with sending := none, turn := otherQueue q })
  | none => s

/-- A request that no block owns is answered UNKNOWN_REQUEST with no content (R157, R165). -/
def ownerUnknown (_body : List Byte) (s : State) : Answer := Answer.refuse .unknownRequest s

/-- UNKNOWN_REQUEST (R165). A kind the link defines for a site is no such frame: nothing happens (log 24). -/
def unknownRequest (kind : Byte) (f : RxFrame) (s : State) : State :=
  if kindUnknown kind then receiveUp kind (takeRequest 0 ownerUnknown) f s else s

/-! ### The meanings -/

def execSyncWordMatch (p : Port) (lastBits : BitVec 16) (s : State) : Host.Outcome State Fault Refusal :=
  .next (syncWordMatch p lastBits s)

def execDownFrameRelay (f : Frame) (s : State) : Host.Outcome State Fault Refusal := .next (downFrameRelay f s)

def execRepeatTxStart (s : State) : Host.Outcome State Fault Refusal := .next (repeatTxStart s)

def execRepeatTxEnd (s : State) : Host.Outcome State Fault Refusal := .next (repeatTxEnd s)

def execUpTxStart (s : State) : Host.Outcome State Fault Refusal := .next (upTxStart s)

def execUpTxEnd (s : State) : Host.Outcome State Fault Refusal := .next (upTxEnd s)

def execUnknownRequest (kind : Byte) (f : RxFrame) (s : State) : Host.Outcome State Fault Refusal :=
  .next (unknownRequest kind f s)

end Sys2Proof.Machine
end

