-- ==== Sys2Proof/Machine/Service.lean ====
section
/-! DEFINITION. The Management Unit (file 10): power-on and the reset pin, LOAD_SITE, ENABLE_SERVICE, RESTART, STATUS,
COUNTERS and CLEAR_ALARMS. -/

namespace Sys2Proof.Machine

/-! ### Power-on and the reset pin (R4, R40, R41, R79, R129, R139, R163, R176) -/

/-- Every block at its power-on state, with the straps read and the cause recorded; the pins keep their levels (log 6). -/
def resetPart (straps : BitVec 12) (cause : ResetCause) (s : State) : State :=
  State.powerOn straps cause (s.carriers.map fun _ k => CarrierState.reset k.monitor.rfPin k.modPin) s.pending

/-- POWER_ON (R176). DEDUCED (log 41): it takes in the first release of the reset pin after power-up, so a pin held through
power-up gives this command alone. -/
def execPowerOn (straps : BitVec 12) (s : State) : Host.Outcome State Fault Refusal := .next (resetPart straps .powerOn s)

/-- RESET_PIN (R176). DEDUCED (log 41): a release of the reset pin other than the first after power-up. -/
def execResetPin (straps : BitVec 12) (s : State) : Host.Outcome State Fault Refusal := .next (resetPart straps .resetPin s)

/-! ### LOAD_SITE (R166, R167) -/

/-- The offset of carrier `c`'s 17 octets in a LOAD_SITE body (section 9.6.2). -/
def siteOffset (c : Carrier) : Nat := 13 + 17 * carrierPlace c

/-- A marker slot octet: 0–31, FFh for NONE; 32–254 clamp to 31 (R166). -/
def markerSlotOf (n : Nat) : Option (Fin 32) := if n = 255 then none else some (Fin.ofNat 32 (min n 31))

/-- The site parameters of a carrier as a LOAD_SITE writes them (R166). -/
def loadedParams (body : List Byte) (c : Carrier) : CarrierParams :=
  let o := siteOffset c
  { enabled := flagSet (field body o 1)
    lead := clampNat 0 120 (field body (o + 1) 2)
    tail := clampNat 0 500 (field body (o + 3) 2)
    wake := clampNat 0 500 (field body (o + 5) 2)
    claimMode := if field body (o + 7) 1 = 0 then .strict else .replace
    markerSlot := markerSlotOf (field body (o + 8) 1)
    markerGroup := Fin.ofNat 16 (clampNat 0 15 (field body (o + 9) 1))
    warn := clampNat 0 2000 (field body (o + 10) 2)
    reports := flagSet (field body (o + 12) 1) }

/-- The path delay a LOAD_SITE writes (R55, R166). -/
def loadedDelay (body : List Byte) (c : Carrier) : Int := clampInt 0 Config.delayLimit (signedField body (siteOffset c + 13))

/-- Some value of carrier `c` was replaced (R166). -/
def carrierClamped (body : List Byte) (c : Carrier) : Bool :=
  let o := siteOffset c
  120 < field body (o + 1) 2 || 500 < field body (o + 3) 2 || 500 < field body (o + 5) 2 || 1 < field body (o + 7) 1 ||
    (31 < field body (o + 8) 1 && field body (o + 8) 1 ≠ 255) || 15 < field body (o + 9) 1 ||
    2000 < field body (o + 10) 2 || loadedDelay body c ≠ signedField body (o + 13)

/-- Some value of the body was replaced (R166). -/
def siteClamped (body : List Byte) : Bool :=
  field body 0 2 < 1 || 1000 < field body 0 2 || 3600 < field body 2 2 || 2048 < field body 4 2 || 2048 < field body 6 2 ||
    carrierClamped body .c1 || carrierClamped body .c2 || carrierClamped body .c3 || carrierClamped body .c4

/-- The site parameters as a LOAD_SITE writes them (R166). -/
def loadedSite (body : List Byte) : SiteParams :=
  { w := clampNat 1 1000 (field body 0 2), h := clampNat 0 3600 (field body 2 2)
    storeLow := clampNat 0 2048 (field body 4 2), storeHigh := clampNat 0 2048 (field body 6 2)
    mask := BitVec.ofNat 32 (field body 8 4) &&& usedAlarms, autoClear := flagSet (field body 12 1)
    carriers := ⟨loadedParams body .c1, loadedParams body .c2, loadedParams body .c3, loadedParams body .c4⟩ }

/-- The later of two slot starts. -/
def laterStart (t : Option Fx) (x : Fx) : Option Fx :=
  match t with
  | some y => if fxAfter x y then some x else some y
  | none => some x

/-- A raised lead passes over every slot whose decision instant it moves to or before this tick (R86, R167, log 17). -/
def passOver (oldLead : Nat) (c : Carrier) (s : State) : State :=
  if oldLead < (s.par c).lead then
    let passed := (candidateSlots s).filter fun sl => tickReached s.now (decisionInstant (slotStart sl) (s.par c).lead)
    modSched c (fun x => { x with settled := passed.foldl (fun t sl => laterStart t (slotStart sl)) x.settled }) s
  else s

/-- The path delays a LOAD_SITE writes; any pending delay is withdrawn (R55, R167). -/
def loadDelays (body : List Byte) (s : State) : State :=
  s.setAlign { s.align with delays := s.align.delays.map fun c _ => { value := (loadedDelay body c).toNat, pending := none } }

/-- A taken LOAD_SITE (R166, R167). -/
def loadSite (body : List Byte) (s : State) : State :=
  let t := s.setMgmt { s.mgmt with service := .configured, params := loadedSite body }
  let t := evalStoreLow (loadDelays body t)
  passOver (s.par .c4).lead .c4 (passOver (s.par .c3).lead .c3 (passOver (s.par .c2).lead .c2 (passOver (s.par .c1).lead .c1 t)))

/-- LOAD_SITE (R164, R166). -/
def ownerLoadSite (body : List Byte) (s : State) : Answer :=
  if s.mgmt.service = .serving then Answer.refuse .notInService s
  else { code := if siteClamped body then .clamped else .ok, content := [], state := loadSite body s }

def execLoadSite (f : RxFrame) (s : State) : Host.Outcome State Fault Refusal :=
  .next (receiveUp kindLoadSite (takeRequest 81 ownerLoadSite) f s)

/-! ### ENABLE_SERVICE (R169) -/

/-- The identity: part code, revision, site address, active and staged tag (R165). -/
def identity (s : State) : List Byte :=
  octets 2 0x4C34 ++ octets 1 0x01 ++ octets 2 s.link.siteAddress.toNat ++ octets 2 s.align.active.tag.toNat ++
    octets 2 s.align.staged.tag.toNat

/-- ENABLE_SERVICE (R164, R169). -/
def ownerEnableService (_body : List Byte) (s : State) : Answer :=
  match s.mgmt.service with
  | .unconfigured => Answer.refuse .refusedState s
  | .configured => { code := .ok, content := identity s, state := s.setMgmt { s.mgmt with service := .serving } }
  | .serving => { code := .ok, content := identity s, state := s }

def execEnableService (f : RxFrame) (s : State) : Host.Outcome State Fault Refusal :=
  .next (receiveUp kindEnableService (takeRequest 0 ownerEnableService) f s)

/-! ### RESTART (R175) -/

/-- What RESTART empties of a carrier: the guard test, the stack, the slots and outcomes, margins and the marker sequence;
no check of the carrier stands over (log 45); the settled mark stays, for a slot is decided at most once (R84, R86, R108,
R130). -/
def restartCarrier (k : CarrierState) : CarrierState :=
  { k with
    guardArmed := false
    guardMarker := false
    marker := []
    monitor := { k.monitor with checked := none }
    sched := { Scheduler.reset with settled := k.sched.settled } }

/-- A taken RESTART (R175); STORE_LOW is evaluated (R85). The probe's abort returns its key before the other keys are
released. -/
def restartPart (s : State) : State :=
  let t := evalStoreLow (flushAll .noTiming (releaseAll (restartProbe s)))
  let t := t.setCarriers (t.carriers.map fun _ k => restartCarrier k)
  clearCounters (t.setMgmt { t.mgmt with service := .configured, alarms := 0, cause := .restart })

/-- RESTART (R164, R175). -/
def ownerRestart (_body : List Byte) (s : State) : Answer :=
  if s.mgmt.service = .unconfigured then Answer.refuse .refusedState s
  else { code := .ok, content := [], state := restartPart s }

def execRestart (f : RxFrame) (s : State) : Host.Outcome State Fault Refusal :=
  .next (receiveUp kindRestart (takeRequest 0 ownerRestart) f s)

/-! ### STATUS (R170) -/

/-- The Tracker's part of STATUS (R21, R170). DESIGN CHOICE (log 51): N is 0 where no pending number is held. -/
def trackerOctets (t : Tracker) : List Byte :=
  octets 1 (refOctet t.ref) ++ optOctets 4 (t.epoch.map BitVec.toNat) ++ octets 2 t.h ++ octets 1 t.history.length ++
    optOctets 4 t.sum8 ++ optOctets 7 (t.next.map fun g => (fxTick g.pred).toNat) ++ octets 1 t.mismatchRun ++
    octets 4 t.mismatchOffset.toNat ++ octets 1 (pendingKindOctet t.pending) ++
    octets 4 ((t.pending.map fun p => p.number.toNat).getD 0)

/-- Ticks remaining to the wake expiry, 0 outside AWAKENING (R128, R170). -/
def wakeRemaining (now : Tick) (p : PowerState) : Nat :=
  match p with
  | .awakening e => tickSpan e now
  | _ => 0

/-- A carrier's part of STATUS (R128, R138, R170). DESIGN CHOICE (log 49): the RF_SENSE octet is 1 for present, 0 for absent. -/
def carrierOctets (c : Carrier) (s : State) : List Byte :=
  let k := s.car c
  let d := s.align.delays.get c
  boolOctet (s.par c).enabled ++ octets 1 (keyOctet k.key) ++ octets 1 (powerOctet k.power) ++
    octets 4 (wakeRemaining s.now k.power) ++ boolOctet k.monitor.rfSense ++ signedOctets 2 k.word ++ octets 4 d.value ++
    optOctets 4 d.pending ++ boolOctet (!k.marker.isEmpty) ++ octets 1 k.marker.length ++ markerOctets k.marker

/-- The STORE_GUARD test markers: bit c − 1 for carrier c (R170). -/
def markerBits (s : State) : Nat :=
  (if (s.car .c1).guardMarker then 1 else 0) + (if (s.car .c2).guardMarker then 2 else 0) +
    (if (s.car .c3).guardMarker then 4 else 0) + (if (s.car .c4).guardMarker then 8 else 0)

/-- The probe's part of STATUS (R150, R170): BUSY, DONE, ABORTED, carrier, mode and phase. -/
def probeOctets (p : Probe) : List Byte :=
  octets 1 ((if p.busy then 1 else 0) + (if p.done then 2 else 0) + (if p.aborted then 4 else 0)) ++
    octets 1 (carrierNumber p.carrier) ++ octets 1 (modeOctet p.mode) ++ octets 1 (phaseOctet p.phase)

/-- The content of a STATUS reply (R170). -/
def statusContent (s : State) : List Byte :=
  octets 1 (serviceOctet s.mgmt.service) ++ octets 1 (causeOctet s.mgmt.cause) ++ octets 4 s.mgmt.alarms.toNat ++
    octets 4 s.mgmt.params.mask.toNat ++ octets 1 (markerBits s) ++ trackerOctets s.tracker ++
    octets 2 s.align.active.tag.toNat ++ octets 2 s.align.staged.tag.toNat ++ switchOctets s.align.pending ++
    octets 2 s.store.freeCount ++ boolOctet s.store.low ++ probeOctets s.probe ++
    carrierOctets .c1 s ++ carrierOctets .c2 s ++ carrierOctets .c3 s ++ carrierOctets .c4 s

/-- STATUS (R170). -/
def ownerStatus (_body : List Byte) (s : State) : Answer := { code := .ok, content := statusContent s, state := s }

def execStatus (f : RxFrame) (s : State) : Host.Outcome State Fault Refusal :=
  .next (receiveUp kindStatus (takeRequest 0 ownerStatus) f s)

/-! ### COUNTERS (R174) -/

/-- A counter in a reply. -/
def counterOctets (x : BitVec 16) : List Byte := octets 2 x.toNat

/-- The taken and unmatched counts of a traffic kind. -/
def kindCounts (k : TrafficKind) (p : PartCounters) : List Byte :=
  counterOctets (p.taken.get k.place) ++ counterOctets (p.unmatched.get k.place)

/-- A carrier's counters in a reply (R174). -/
def carrierCounts (k : CarrierCounters) : List Byte :=
  counterOctets k.sent ++ counterOctets k.dropped ++ k.refused.toList.flatMap counterOctets ++
    counterOctets k.blockDiscards ++ counterOctets k.clampedWords ++ counterOctets k.lowMargins

/-- The content of a COUNTERS reply (R174). DEDUCED (log 40): the taken and the unmatched count stand together, kind by kind. -/
def countersContent (s : State) : List Byte :=
  let p := s.mgmt.counters
  counterOctets p.badFrames ++ counterOctets p.ownDrops ++ counterOctets p.relayDrops ++ counterOctets p.marksRejected ++
    counterOctets p.strayPulses ++ kindCounts .timeMark p ++ kindCounts .batchHeader p ++ kindCounts .batchBlock p ++
    kindCounts .cancel p ++ counterOctets p.requests ++
    carrierCounts (s.car .c1).counters ++ carrierCounts (s.car .c2).counters ++
    carrierCounts (s.car .c3).counters ++ carrierCounts (s.car .c4).counters

/-- COUNTERS (R174): every counter as it stands, then every counter 0. -/
def ownerCounters (_body : List Byte) (s : State) : Answer :=
  { code := .ok, content := countersContent s, state := clearCounters s }

def execCounters (f : RxFrame) (s : State) : Host.Outcome State Fault Refusal :=
  .next (receiveUp kindCounters (takeRequest 0 ownerCounters) f s)

/-! ### CLEAR_ALARMS (R173) -/

/-- CLEAR_ALARMS (R173). -/
def ownerClearAlarms (body : List Byte) (s : State) : Answer :=
  let set := BitVec.ofNat 32 (field body 0 4)
  let t := clearMarkers set (clearAlarmSet set s)
  { code := .ok, content := octets 4 t.mgmt.alarms.toNat, state := t }

def execClearAlarms (f : RxFrame) (s : State) : Host.Outcome State Fault Refusal :=
  .next (receiveUp kindClearAlarms (takeRequest 4 ownerClearAlarms) f s)

end Sys2Proof.Machine
end

