-- ==== Sys2Proof/Machine/Dispatch.lean ====
section
/-! DEFINITION. One arm per command: each calls its own meaning. -/

namespace Sys2Proof.Machine

def exec (i : Instr) (s : State) : Host.Outcome State Fault Refusal :=
  match i with
  | .powerOn straps => Sys2Proof.Machine.execPowerOn straps s
  | .resetPin straps => Sys2Proof.Machine.execResetPin straps s
  | .clockLost => Sys2Proof.Machine.execClockLost s
  | .clockReturn => Sys2Proof.Machine.execClockReturn s
  | .epochPulse => Sys2Proof.Machine.execEpochPulse s
  | .holdoverEpochStart => Sys2Proof.Machine.execHoldoverEpochStart s
  | .timeMark f => Sys2Proof.Machine.execTimeMark f s
  | .batchHeader f => Sys2Proof.Machine.execBatchHeader f s
  | .batchBlock f => Sys2Proof.Machine.execBatchBlock f s
  | .cancel f => Sys2Proof.Machine.execCancel f s
  | .loadSite f => Sys2Proof.Machine.execLoadSite f s
  | .enableService f => Sys2Proof.Machine.execEnableService f s
  | .restart f => Sys2Proof.Machine.execRestart f s
  | .status f => Sys2Proof.Machine.execStatus f s
  | .counters f => Sys2Proof.Machine.execCounters f s
  | .clearAlarms f => Sys2Proof.Machine.execClearAlarms f s
  | .loadAlign f => Sys2Proof.Machine.execLoadAlign f s
  | .commitAlign f => Sys2Proof.Machine.execCommitAlign f s
  | .readAlign f => Sys2Proof.Machine.execReadAlign f s
  | .epochSet f => Sys2Proof.Machine.execEpochSet f s
  | .schedule f => Sys2Proof.Machine.execSchedule f s
  | .standby f => Sys2Proof.Machine.execStandby f s
  | .markerLoad f => Sys2Proof.Machine.execMarkerLoad f s
  | .markerClear f => Sys2Proof.Machine.execMarkerClear f s
  | .probeStart f => Sys2Proof.Machine.execProbeStart f s
  | .probeAbort f => Sys2Proof.Machine.execProbeAbort f s
  | .probeResult f => Sys2Proof.Machine.execProbeResult f s
  | .guardTest f => Sys2Proof.Machine.execGuardTest f s
  | .unknownRequest kind f => Sys2Proof.Machine.execUnknownRequest kind f s
  | .downFrameRelay f => Sys2Proof.Machine.execDownFrameRelay f s
  | .repeatTxStart => Sys2Proof.Machine.execRepeatTxStart s
  | .repeatTxEnd => Sys2Proof.Machine.execRepeatTxEnd s
  | .upTxStart => Sys2Proof.Machine.execUpTxStart s
  | .upTxEnd => Sys2Proof.Machine.execUpTxEnd s
  | .tableRoll => Sys2Proof.Machine.execTableRoll s
  | .currentCycleAdvance c => Sys2Proof.Machine.execCurrentCycleAdvance c s
  | .slotDecision c => Sys2Proof.Machine.execSlotDecision c s
  | .keyUp c => Sys2Proof.Machine.execKeyUp c s
  | .symbolEmit c => Sys2Proof.Machine.execSymbolEmit c s
  | .payloadEnd c => Sys2Proof.Machine.execPayloadEnd c s
  | .tailExpiry c => Sys2Proof.Machine.execTailExpiry c s
  | .wakeExpiry c => Sys2Proof.Machine.execWakeExpiry c s
  | .slotEnd c => Sys2Proof.Machine.execSlotEnd c s
  | .rfSenseChange c present => Sys2Proof.Machine.execRfSenseChange c present s
  | .stuckCarrier c => Sys2Proof.Machine.execStuckCarrier c s
  | .modSenseChange c => Sys2Proof.Machine.execModSenseChange c s
  | .loadSettleEnd => Sys2Proof.Machine.execLoadSettleEnd s
  | .keyUpEnd => Sys2Proof.Machine.execKeyUpEnd s
  | .probeEmission => Sys2Proof.Machine.execProbeEmission s
  | .edgeWindowClose => Sys2Proof.Machine.execEdgeWindowClose s
  | .probePhaseEnd => Sys2Proof.Machine.execProbePhaseEnd s
  | .keyDownEnd => Sys2Proof.Machine.execKeyDownEnd s
  | .loadReturnEnd => Sys2Proof.Machine.execLoadReturnEnd s
  | .observeEnd => Sys2Proof.Machine.execObserveEnd s
  | .referenceClockEdge => Sys2Proof.Machine.execReferenceClockEdge s
  | .syncWordMatch p lastBits => Sys2Proof.Machine.execSyncWordMatch p lastBits s

end Sys2Proof.Machine
end

