-- ==== Sys2Proof/Safety.lean ====
section
/-! DEFINITION. What a safe state is (the invariants every step keeps), and the vocabulary of the statements: a frame the
part takes, and the state once a frame is heard and once a request is answered. -/

namespace Sys2Proof.Safety

open Sys2Proof.Machine

/-! ### Frames -/

/-- The part takes a frame received on UP: its check is good, and it is a broadcast or for this site (R153, R155). -/
def Takes (kind : Byte) (f : RxFrame) (s : State) : Prop :=
  goodFrame (f.withKind kind) = true ∧ f.dest ≠ 0 ∧ (f.dest = 4095 ∨ f.dest = s.link.siteAddress)

/-- A taken frame has been heard: the receiver hunts again, and a broadcast has joined the repeat store (R153, R156). -/
def heard (kind : Byte) (f : RxFrame) (s : State) : State :=
  s.setLink { s.link with
    rxUp := .hunt
    repeatStore := s.link.repeatStore ++ (if f.dest = 4095 then [f.withKind kind] else []) }

/-- A taken request has been heard and counted (R157). -/
def requested (kind : Byte) (f : RxFrame) (s : State) : State := countRequest (heard kind f s)

/-- A taken traffic frame has been heard and counted (R157). -/
def carried (k : TrafficKind) (kind : Byte) (f : RxFrame) (s : State) : State := countTaken k (heard kind f s)

/-- The reply a request gets in state `t`, its effects done: flags, kind, code, content (R159, R165). -/
def replyTo (kind : Byte) (f : RxFrame) (code : Byte) (content : List Byte) (t : State) : Frame :=
  sealFrame f.src t.link.siteAddress 0x80 f.tag ((if attention t then 1 else 0) :: kind :: code :: content)

/-- State `t` with the reply offered to the own queue, which takes at most 8 frames (R159, R160). -/
def replied (kind : Byte) (f : RxFrame) (code : Byte) (content : List Byte) (t : State) : State :=
  if t.link.own.length < 8 then
    t.setLink (chooseIfIdle { t.link with own := t.link.own ++ [replyTo kind f code content t] })
  else t.setMgmt { t.mgmt with counters := { t.mgmt.counters with ownDrops := satInc t.mgmt.counters.ownDrops } }

/-- The rows of the frames received on UP, each with its kind (R157, section 9.6). -/
def upRows : List (Byte × (RxFrame → Instr)) :=
  [(0x01, .timeMark), (0x02, .batchHeader), (0x03, .batchBlock), (0x04, .cancel), (0x20, .loadSite), (0x21, .enableService),
   (0x22, .restart), (0x23, .status), (0x24, .counters), (0x25, .clearAlarms), (0x28, .loadAlign), (0x29, .commitAlign),
   (0x2A, .readAlign), (0x2C, .epochSet), (0x2D, .schedule), (0x30, .standby), (0x31, .markerLoad), (0x32, .markerClear),
   (0x34, .probeStart), (0x35, .probeAbort), (0x36, .probeResult), (0x38, .guardTest)]

/-- The requests whose body has a layout, each with its kind and length in octets (section 9.6.2). -/
def layoutRows : List (Byte × Nat × (RxFrame → Instr)) :=
  [(0x20, 81, .loadSite), (0x25, 4, .clearAlarms), (0x28, 11, .loadAlign), (0x29, 6, .commitAlign), (0x2A, 4, .readAlign),
   (0x2C, 4, .epochSet), (0x2D, 1, .schedule), (0x30, 1, .standby), (0x31, 2, .markerLoad), (0x32, 1, .markerClear),
   (0x34, 3, .probeStart), (0x38, 1, .guardTest)]

/-- The traffic rows, each with its kind and the length of its layout (section 9.6.1). -/
def trafficRows : List (TrafficKind × Byte × Nat × (RxFrame → Instr)) :=
  [(.timeMark, 0x01, 4, .timeMark), (.batchHeader, 0x02, 11, .batchHeader), (.batchBlock, 0x03, 15, .batchBlock),
   (.cancel, 0x04, 2, .cancel)]

/-! ### The slots and batches of a carrier -/

/-- A carrier has no active, armed or finishing run (R117). -/
def NoRuns (t : LaunchTimer) : Prop := t.active = none ∧ t.armed = none ∧ t.finishing = none

/-- A claim map holds no claim. -/
def EmptyMap (m : ClaimMap) : Prop := ∀ i : Fin 32, m.get i = none

/-- A carrier holds no claim, no run of the Launch Timer, and no batch on air, incoming or on its stack. -/
def Idle (k : CarrierState) : Prop :=
  EmptyMap k.maps.current ∧ EmptyMap k.maps.next ∧ NoRuns k.timer ∧ k.sched.onAir = none ∧ k.sched.incoming = none ∧
    k.sched.stack = []

/-- A decision of slot `sl` of carrier `c` with no gate closed, the claim maps standing for its cycle (R62, R86 to R89). -/
def Decides (c : Carrier) (sl : SlotRef) (s : State) : Prop :=
  dueSlot c s = some sl ∧ currentCycle c s = some sl.cycle ∧ (s.car c).maps.label = some sl.cycle ∧
    (∀ o ∈ (s.car c).sched.openSlots, o.slot ≠ sl) ∧ probeOn c s = false ∧ (s.car c).power = .active

/-- A slot of grid `g` is past for carrier `c`: its decision instant is at or before the tick, or it is held as decided or
passed over (R66, R86; log 16). -/
def SlotPast (c : Carrier) (g : Grid) (p : Nat) (s : State) : Prop :=
  let start := g.pred + BitVec.ofNat 72 (p * (g.sum8 * 1024))
  tickReached s.tracker.tick (fxTick start - BitVec.ofNat 56 ((s.par c).lead * 10000 + 25000)) = true ∨
    ∃ y, (s.car c).sched.settled = some y ∧ fxAfter start y = false

/-- A header for slot `i` of cycle `n` is late by check 7 (R66): the slot is past; or its epoch has started with no grid, or
lies behind the current one. A slot of an epoch not yet predicted is not late. -/
def Late (c : Carrier) (n : CycleNo) (i : Fin 32) (s : State) : Prop :=
  ∃ e, s.tracker.epoch = some e ∧
    let k : EpochNo := BitVec.ofNat 32 (4 * n.toNat + i.val / 8)
    (k = e ∧ ∀ g, s.tracker.current = some g → SlotPast c g (i.val % 8) s) ∨
      (k = e + 1 ∧ ∃ g, s.tracker.next = some g ∧ SlotPast c g (i.val % 8) s) ∨
      (k ≠ e ∧ k ≠ e + 1 ∧ 2147483648 ≤ (k - e).toNat)

/-- A mark passes the guard (R17): in LOCKED and HOLDOVER it is not after PT less 500,000 ticks, in ACQUIRING not after the last
pulse plus 9,500,000, or there has been no pulse (log 4). -/
def MarkPasses (t : Tracker) : Prop :=
  let inTime (guard : Tick) := t.tick = guard ∨ tickReached t.tick guard = false
  (∃ g, (t.ref = .locked ∨ t.ref = .holdover) ∧ t.next = some g ∧ inTime (fxTick g.pred - BitVec.ofNat 56 500000)) ∨
    (t.ref = .acquiring ∧ ∀ l, t.lastPulse = some l → inTime (l + BitVec.ofNat 56 9500000))

/-- Carrier `c`'s group row of batch `b` is enabled in the active bank (R54). -/
def RowOn (c : Carrier) (b : Batch) (s : State) : Prop :=
  ((s.align.active.records.get c).rows.get b.group).enabled = true

/-- Blocks of batch `b` remain (R95). -/
def Remains (b : Batch) : Prop := ∃ l, b.last = some l ∧ b.nextBlock ≤ l.index

/-- A run that names the batch `id` is held: its payload end has not been reached (R92). -/
def Held (c : Carrier) (id : BatchId) (s : State) : Prop := ∃ r ∈ (s.car c).timer.runs, r.names id = true

/-- A decision stops the on-air batch `a` with reason `why` and code `code` (R92). -/
def Stops (c : Carrier) (a : Batch) (s : State) (why : StopReason) (code : OutcomeCode) : Prop :=
  Remains a ∧ ((a.cancelPending = true ∧ why = .cancelled ∧ code = .cancelled) ∨
    (a.cancelPending = false ∧ ¬ RowOn c a s ∧ why = .notInGroup ∧ code = .notInGroup))

/-- Run `r`, the active one of timer `x`, has emitted a position: timer `y` (R30 to R32). -/
def RunAdvances (r : Run) (x y : LaunchTimer) : Prop :=
  (r.pos + 1 < r.symbols → y = { x with active := some { r with pos := r.pos + 1 }, acc := fxAdd x.acc x.step }) ∧
  (r.symbols ≤ r.pos + 1 → x.armed = none → y = { x with
    active := none, finishing := some { r with pos := r.pos + 1 }, acc := fxAdd x.acc x.step }) ∧
  ∀ a, r.symbols ≤ r.pos + 1 → x.armed = some a → y =
    { active := some { a with pos := 0 }, armed := none, finishing := some { r with pos := r.pos + 1 }
      acc := a.launch, step := a.tfx }

/-- A code given to the open slots that a test picks, each keeping the code that stands higher (R102). -/
def coded (p : SlotRef → Bool) (o : SlotOutcome) (slots : List OpenSlot) : List OpenSlot :=
  slots.map fun x => if p x.slot = true then { x with held := mergeCode x.held o } else x

/-- Each open slot of carrier `c` of the outcome array's cycle is recorded at a loss of timing (R102, R104): an entry once
written stands; a discarded run's slot takes CUT with the run's batch; another slot takes the code it held, against the
NO_TIMING of a SUSPENDED batch where the event falls in its span, as tracker `w` times it. -/
def SlotsRecorded (w : Tracker) (c : Carrier) (s t : State) : Prop :=
  let x := (s.car c).sched
  let runs := (s.car c).timer.runs
  (∀ r ∈ runs, ∃ y ∈ x.openSlots, y.slot = r.slot) →
  ∀ o ∈ x.openSlots, x.outcomes.label = some o.slot.cycle →
    (∀ y ∈ x.openSlots, y ≠ o → y.slot.cycle = o.slot.cycle → y.slot.index ≠ o.slot.index) →
    let entry := (t.car c).sched.outcomes.entries.get o.slot.index
    (∀ e, x.outcomes.entries.get o.slot.index = some e → entry = some e) ∧
    (x.outcomes.entries.get o.slot.index = none →
      (∀ r ∈ runs, r.slot = o.slot → (∀ q ∈ runs, q.slot = o.slot → q.batchId = r.batchId) →
        (∀ h, o.held = some h → h.code ≠ .cut) → entry = some { code := .cut, id := r.batchId }) ∧
      ((∀ r ∈ runs, r.slot ≠ o.slot) → x.incoming = none →
        (x.stack = [] → entry = o.held) ∧
        ∀ id, x.stack = [id] → x.closed = none →
          entry = if inSpan w o.slot = true then mergeCode o.held { code := .noTiming, id := some id } else o.held))

/-! ### The probe -/

/-- What an abort in state `s` makes of its probe (R148). -/
def ProbeAborted (s : State) (p : Probe) : Prop :=
  (s.probe.phase = .idle ∨ s.probe.aborting = true → p = s.probe) ∧
  (s.probe.aborting = false →
    (s.probe.phase = .loadReturn → p = { s.probe with aborting := true, abortPhase := .loadReturn }) ∧
    (s.probe.phase = .loadSettle ∨ s.probe.phase = .keyUp ∨ s.probe.phase = .probe ∨ s.probe.phase = .keyDown →
      p = { s.probe with
        phase := .loadReturn, phaseEnd := some (s.tracker.tick + BitVec.ofNat 56 200000)
        aborting := true, abortPhase := s.probe.phase }) ∧
    (s.probe.phase = .observe → s.probe.noResult = false → ∃ r : ProbeRecord,
      r.carrier = s.probe.carrier ∧ r.mode = s.probe.mode ∧ r.outcome = .aborted ∧ r.abortPhase = .observe ∧
      r.samples = s.probe.samples ∧ r.adopted = false ∧
      p = { s.probe with
        phase := .idle, phaseEnd := none, aborting := false, result := some r, done := false, aborted := true }))

/-! ### Epoch starts -/

/-- The number an epoch start takes in state `s`: the pending number, else one more, else UNSET (R14). -/
def numberTaken (s : State) : Option EpochNo :=
  match s.tracker.pending with
  | some p => some p.number
  | none => s.tracker.epoch.map fun n => n + 1

/-- The command starts an epoch: a pulse in ACQUIRING or inside the open window, or the passing of the window (R5, R10, R12). -/
def StartsEpoch (e : Instr) (s : State) : Prop :=
  (e = .epochPulse ∧ (s.tracker.ref = .acquiring ∨
    ((s.tracker.ref = .locked ∨ s.tracker.ref = .holdover) ∧ s.tracker.inWindow = true))) ∨
  (e = .holdoverEpochStart ∧ s.tracker.windowPassed = true)

/-! ### Invariants -/

/-- Every word driven on an exciter port lies within −32768..32767 (R37). -/
def WordsInRange (s : State) : Prop := ∀ c, -32768 ≤ (s.car c).word ∧ (s.car c).word ≤ 32767

/-- The bounds of the lists: own and relay queue 8 frames (R158, R159), the Batch Table 64 records (R58), a marker sequence 64
bits (R130), the epoch history 8 intervals (R7), the mismatch run 3 (R19), a probe sixteen samples (R139). -/
def ListsBounded (s : State) : Prop :=
  s.link.own.length ≤ 8 ∧ s.link.relay.length ≤ 8 ∧ s.batches.length ≤ 64 ∧ (∀ c, (s.car c).marker.length ≤ 64) ∧
    s.tracker.history.length ≤ 8 ∧ s.tracker.mismatchRun ≤ 3 ∧ s.probe.samples.length = 16

/-- A carrier record within its ranges (R41). -/
def RecordInRange (r : CarrierRecord) : Prop :=
  -16384 ≤ r.centre ∧ r.centre ≤ 16383 ∧ ∀ g : Fin 16, -2500000 ≤ (r.rows.get g).offset ∧ (r.rows.get g).offset ≤ 2500000

/-- The values in a bank always lie within their ranges (R41). -/
def TablesInRange (s : State) : Prop :=
  ∀ c, RecordInRange (s.align.active.records.get c) ∧ RecordInRange (s.align.staged.records.get c)

/-- Path delays and pending delays lie within 0–2,000,000 ns (R55), as do the measured mean and the samples it comes from
(R144, R145). -/
def DelaysInRange (s : State) : Prop :=
  (∀ c, (s.align.delays.get c).value ≤ 2000000 ∧ ∀ v, (s.align.delays.get c).pending = some v → v ≤ 2000000) ∧
    (∀ n, Sample.delay n ∈ s.probe.samples → 1 ≤ n ∧ n ≤ 20000) ∧
    ∀ a m, s.probe.assessment = some a → a.mean = some m → m ≤ 2000000

/-- The site parameters of a carrier within their ranges (R166). -/
def ParamsInRange (s : State) : Prop :=
  1 ≤ s.mgmt.params.w ∧ s.mgmt.params.w ≤ 1000 ∧ s.mgmt.params.h ≤ 3600 ∧ s.mgmt.params.storeLow ≤ 2048 ∧
    s.mgmt.params.storeHigh ≤ 2048 ∧
    ∀ c, (s.par c).lead ≤ 120 ∧ (s.par c).tail ≤ 500 ∧ (s.par c).wake ≤ 500 ∧ (s.par c).warn ≤ 2000

/-- The store is in canonical form. -/
def StoreCanonical (s : State) : Prop := s.store.wf = true

/-- The probe's flags (R139): DONE and ABORTED are never both set, a result record exists exactly while one of them is, and a
running probe has none. -/
def ProbeFlags (s : State) : Prop :=
  (s.probe.done && s.probe.aborted) = false ∧ s.probe.result.isSome = (s.probe.done || s.probe.aborted) ∧
    (s.probe.phase ≠ .idle → s.probe.result = none)

/-- A key in PROBE is that of the carrier of a probe in KEY_UP or PROBE (R127); a probe that is aborting is in LOAD_RETURN
(R148). -/
def ProbeHoldsKey (s : State) : Prop :=
  (∀ c, (s.car c).key = .probe → s.probe.carrier = c ∧ (s.probe.phase = .keyUp ∨ s.probe.phase = .probe)) ∧
    (s.probe.aborting = true → s.probe.phase = .loadReturn)

/-- The store blocks that the records hold, one entry for each held position (R58, R80). -/
def heldBlocks (s : State) : List Nat := s.batches.flatMap fun b => b.blocks.filterMap fun x => x

/-- The Batch Table is keyed by ascending ids, no two alike, and each block list has the positions of its header (R58). -/
def TableOrdered (s : State) : Prop :=
  s.batches.Pairwise (fun a b => a.id.toNat < b.id.toNat) ∧
    ∀ b ∈ s.batches, b.blocks.length = b.slots * b.rate.blocks

/-- The blocks are accounted for (R80): no store block is held by two positions, a block is FREE exactly when none holds it,
and the number of FREE blocks plus the number of held ones is 2048. -/
def BlocksAccounted (s : State) : Prop :=
  StoreCanonical s ∧ TableOrdered s ∧ (heldBlocks s).Nodup ∧
    (∀ n < 2048, (readBlock n s).tag = .free ↔ n ∉ heldBlocks s) ∧ (∀ n ∈ heldBlocks s, n < 2048) ∧
    s.store.freeCount + (heldBlocks s).length = 2048

/-- The claims of a carrier's maps (R61): each is of a PENDING or COMPLETE record of the carrier, at its start slot, in the
map of its cycle; unlabelled maps are empty. -/
def ClaimsPlaced (c : Carrier) (s : State) : Prop :=
  let m := (s.car c).maps
  (m.label = none → EmptyMap m.current ∧ EmptyMap m.next) ∧
    (∀ n, m.label = some n → ∀ (i : Fin 32) (id : BatchId),
      (m.current.get i = some id →
        ∃ b, findBatch id s = some b ∧ b.carrier = c ∧ b.start = i ∧ b.cycle = n ∧
          (b.state = .pending ∨ b.state = .complete) ∧ (s.car c).sched.incoming ≠ some id) ∧
      (m.next.get i = some id →
        ∃ b, findBatch id s = some b ∧ b.carrier = c ∧ b.start = i ∧ b.cycle = n + 1 ∧
          (b.state = .pending ∨ b.state = .complete) ∧ (s.car c).sched.incoming ≠ some id))

/-- The batches of a carrier stand where their states say (R94, R96): the on-air batch is its one ON_AIR record, its stack
holds at most 4 entries, each SUSPENDED batch of the carrier exactly once, and the incoming batch is COMPLETE or stands on the
stack. -/
def BatchesPlaced (c : Carrier) (s : State) : Prop :=
  let x := (s.car c).sched
  x.stack.length ≤ 4 ∧ x.stack.Nodup ∧
    (∀ b ∈ s.batches, b.carrier = c → ((b.state = .onAir ↔ x.onAir = some b.id) ∧ (b.state = .suspended ↔ b.id ∈ x.stack))) ∧
    (∀ id, x.onAir = some id → ∃ b, findBatch id s = some b ∧ b.carrier = c) ∧
    (∀ id ∈ x.stack, ∃ b, findBatch id s = some b ∧ b.carrier = c) ∧
    (∀ id, x.incoming = some id → ∃ b, findBatch id s = some b ∧ b.carrier = c ∧ (b.state = .complete ∨ b.state = .suspended))

/-- The Scheduler and the Batch Manager agree on every carrier. -/
def Scheduled (s : State) : Prop := TableOrdered s ∧ ∀ c, ClaimsPlaced c s ∧ BatchesPlaced c s

end Sys2Proof.Safety
end

