-- ==== Sys2Proof/Certificates/Slice0/Obligations.lean ====
section
/-! DEFINITION. The statements. Each name says what it states; the docstring names the rules of spec/ or the log entry. -/

open Sys2Proof Sys2Proof.Machine Sys2Proof.Safety

/-! ### The queue and reset -/

/-- With a command at the front of the queue, a step is `exec` of that command on the state with the rest of the queue; on an
empty queue the part idles (the model's queue and its idling: log 1). -/
def Obligations.StepRunsFrontCommand : Prop :=
  (∀ (c : Instr) (rest : List Instr) (s : State), step (s.setPending (c :: rest)) = exec c (s.setPending rest)) ∧
  ∀ s : State, step (s.setPending []) = .next (s.setPending [])

/-- Every command answers a next state and leaves the queue as it is: no command of the part stops it (95: each step is whole).
-/
def Obligations.EveryCommandAnswers : Prop :=
  ∀ (c : Instr) (s : State), ∃ t, exec c s = .next t ∧ t.pending = s.pending

/-- POWER_ON puts every block at its power-on state (R4, R40, R41, R57, R79, R85, R108, R129, R130, R139, R163, R166, R168,
R176); RESET_PIN differs from it in the recorded cause only (R176). -/
def Obligations.PowerOnClears : Prop :=
  (∀ (straps : BitVec 12) (s : State), ∃ t, exec (.powerOn straps) s = .next t ∧
    t.tracker = { tick := 0, ref := .acquiring, epoch := none, lastPulse := none, history := [], anchor := none, next := none,
                  current := none, window := none, h := 0, pending := none, mismatchRun := 0, mismatchOffset := 0 } ∧
    t.align.pending = none ∧ t.align.active.tag = 0 ∧ t.align.staged.tag = 0 ∧
    t.batches = [] ∧ (∀ n, (readBlock n t).tag = .free) ∧ t.store.freeCount = 2048 ∧ t.store.low = false ∧
    ∀ c,
      t.align.delays.get c = { value := 0, pending := none } ∧
      (t.align.active.records.get c).gain = 0 ∧ (t.align.active.records.get c).centre = 0 ∧
      (∀ g : Fin 16, (t.align.active.records.get c).rows.get g = { enabled := false, offset := 0 }) ∧
      t.align.staged.records.get c = t.align.active.records.get c ∧
      (t.car c).maps.label = none ∧ Idle (t.car c) ∧ (t.car c).timer.acc = 0 ∧ (t.car c).timer.step = 0 ∧
      (t.car c).word = 0 ∧ (t.car c).sched.openSlots = [] ∧ (t.car c).sched.lastMargin = none ∧
      (t.car c).sched.goodStarts = 0 ∧ (t.car c).sched.outcomes.label = none ∧
      (∀ i : Fin 32, (t.car c).sched.outcomes.entries.get i = none) ∧
      (t.car c).key = .released ∧ (t.car c).power = .active ∧ (t.car c).load = false ∧
      (t.car c).monitor.opening = none ∧ (t.car c).monitor.presence = none ∧ (t.car c).monitor.rfSense = false ∧
      (t.car c).marker = [] ∧ (t.car c).guardArmed = false ∧ (t.car c).guardMarker = false) ∧
  ∀ (straps : BitVec 12) (s : State), ∃ t, exec (.powerOn straps) s = .next t ∧
    exec (.resetPin straps) s = .next (t.setMgmt { t.mgmt with cause := .resetPin }) ∧
    t.probe.phase = .idle ∧ t.probe.carrier = .c1 ∧ t.probe.mode = .path ∧ t.probe.adopt = false ∧
    t.probe.samples = List.replicate 16 .notTaken ∧ t.probe.aborting = false ∧ t.probe.noResult = false ∧
    t.probe.result = none ∧ t.probe.done = false ∧ t.probe.aborted = false ∧
    t.link.siteAddress = straps ∧ t.link.rxUp = .hunt ∧ t.link.rxDown = .hunt ∧ t.link.repeatStore = [] ∧
    t.link.repeating = false ∧ t.link.own = [] ∧ t.link.relay = [] ∧ t.link.sending = none ∧ t.link.turn = .own ∧
    t.mgmt.service = .unconfigured ∧ t.mgmt.cause = .powerOn ∧ t.mgmt.alarms = 0 ∧ t.mgmt.params.mask = 0 ∧
    t.mgmt.params.w = 20 ∧ t.mgmt.params.h = 300 ∧ t.mgmt.params.storeLow = 256 ∧ t.mgmt.params.storeHigh = 512 ∧
    t.mgmt.params.autoClear = false ∧ t.mgmt.counters = PartCounters.reset ∧
    ∀ c,
      t.par c = { enabled := false, lead := 20, tail := 50, wake := 0, claimMode := .strict, markerSlot := none,
                  markerGroup := 0, warn := 250, reports := false } ∧
      (t.car c).counters = CarrierCounters.reset

/-! ### Invariants -/

/-- Every step keeps the driven words in their range (R37) and the lists in their bounds (R7, R19, R58, R130, R158, R159). -/
def Obligations.StepKeepsWordsAndLists : Prop :=
  ∀ s t : State, WordsInRange s → ListsBounded s → step s = .next t → WordsInRange t ∧ ListsBounded t

/-- Every step keeps the alignment values, the site parameters and the delays in their ranges (R41, R55, R145, R166). -/
def Obligations.StepKeepsTablesInRange : Prop :=
  ∀ s t : State, TablesInRange s → ParamsInRange s → DelaysInRange s → step s = .next t →
    TablesInRange t ∧ ParamsInRange t ∧ DelaysInRange t

/-- Every step keeps the probe's flags consistent (R139) and its hold of the key (R127, R148). -/
def Obligations.StepKeepsProbeConsistent : Prop :=
  ∀ s t : State, ProbeFlags s → ProbeHoldsKey s → step s = .next t → ProbeFlags t ∧ ProbeHoldsKey t

/-- Every step keeps the store blocks accounted for: FREE plus held is 2048, and no block is held twice (R80). -/
def Obligations.StepKeepsBlocksAccounted : Prop :=
  ∀ s t : State, BlocksAccounted s → step s = .next t → BlocksAccounted t

/-- Every step keeps the Batch Manager and the Scheduler in agreement: claims, the on-air batch, the incoming batch and the
stack of at most four SUSPENDED batches (R58, R61, R94, R96). -/
def Obligations.StepKeepsScheduled : Prop :=
  ∀ s t : State, Scheduled s → step s = .next t → Scheduled t

/-- The state after reset meets every invariant (its straps and pins are the model's choice: log 5, log 6). -/
def Obligations.ResetMeetsInvariants : Prop :=
  WordsInRange State.reset ∧ ListsBounded State.reset ∧ TablesInRange State.reset ∧ ParamsInRange State.reset ∧
    DelaysInRange State.reset ∧ ProbeFlags State.reset ∧ ProbeHoldsKey State.reset ∧ BlocksAccounted State.reset ∧
    Scheduled State.reset

/-! ### The reference clock (R1 to R3) -/

/-- A reference edge while the clock is present counts one tick (R1); the first after a reset also samples RF_SENSE on each
carrier, starting a presence run where it is present and the key line released (R129; DESIGN CHOICE of the pin levels: log 6).
The first edge in NO_CLOCK, as either command, returns the clock: it counts (log 10), the state is ACQUIRING with an empty
history and no last pulse, the epoch number and the alarms stand, and RF_SENSE is sampled again (R3, R126). -/
def Obligations.ClockEdges : Prop :=
  (∀ s : State, s.tracker.ref ≠ .noClock →
    (s.firstEdge = false →
      exec .referenceClockEdge s = .next (s.setTracker { s.tracker with tick := s.tracker.tick + 1 })) ∧
    (s.firstEdge = true →
      exec .referenceClockEdge s = .next (((s.setTracker { s.tracker with tick := s.tracker.tick + 1 }).setCarriers
        (s.carriers.map fun _ k => { k with monitor := { k.monitor with
          rfSense := k.monitor.rfPin
          presence := if k.monitor.rfPin = true ∧ keyLine k.key = false then some (s.tracker.tick + 1) else none } })).setFirstEdge
        false))) ∧
  ∀ s : State, s.tracker.ref = .noClock → ∃ t,
    exec .clockReturn s = .next t ∧ exec .referenceClockEdge s = .next t ∧
    t.tracker = { s.tracker with tick := s.tracker.tick + 1, ref := .acquiring, lastPulse := none, history := [] } ∧
    t.mgmt = s.mgmt ∧ t.align = s.align ∧ t.batches = s.batches ∧ t.store = s.store ∧ t.probe = s.probe ∧ t.link = s.link ∧
    ∀ c, t.car c = { s.car c with monitor := { (s.car c).monitor with
      rfSense := (s.car c).monitor.rfPin
      presence := if (s.car c).monitor.rfPin = true ∧ keyLine (s.car c).key = false then some (s.tracker.tick + 1)
        else none } }

/-- CLOCK_LOST: what the Tracker becomes (R2), CLOCK_LOST latched, every batch ended and the store all FREE (R77), every key
released, every run discarded, the open slots and the stacks empty (R104, R117), the monitors cleared (R126). The tables,
the delays, the power states, the markers and the link stand (R41, R57, R123, R130, R163). A running probe is aborted (R148),
and each open slot of the array's cycle is recorded where no entry stands: CUT for a discarded run; for another slot the code
held, with no batch SUSPENDED, or with one SUSPENDED that code against its NO_TIMING where the event falls in the slot's span
(R100 to R102, R104; a slot 31 recorded before: log 35). -/
def Obligations.ClockLossFlushes : Prop :=
  ∀ s : State, s.tracker.ref ≠ .noClock → Scheduled s → BlocksAccounted s → ProbeHoldsKey s → ∃ t,
    exec .clockLost s = .next t ∧
    t.tracker = { s.tracker with ref := .noClock, history := [], anchor := none, current := none, next := none,
                                 window := none, h := 0, lastPulse := none, pending := none, mismatchRun := 0 } ∧
    t.mgmt.alarms = s.mgmt.alarms ||| 1 ∧ t.mgmt.params = s.mgmt.params ∧ t.mgmt.service = s.mgmt.service ∧
    t.batches = [] ∧ t.store.freeCount = 2048 ∧ (∀ n, n < 2048 → (readBlock n t).tag = .free) ∧
    t.align = s.align ∧ t.link = s.link ∧
    ∀ c, Idle (t.car c) ∧ (t.car c).key = .released ∧ (t.car c).sched.openSlots = [] ∧
      (t.car c).word = centreWord (activeWords c s) ∧ (t.car c).power = (s.car c).power ∧
      (t.car c).marker = (s.car c).marker ∧ (t.car c).monitor.opening = none ∧ (t.car c).monitor.presence = none ∧
      (t.car c).sched.lastMargin = (s.car c).sched.lastMargin ∧ (t.car c).sched.goodStarts = (s.car c).sched.goodStarts ∧
      ProbeAborted s t.probe ∧ SlotsRecorded s.tracker c s t

/-! ### Epoch starts (R5 to R15) -/

/-- A pulse in ACQUIRING starts an epoch of kind PULSE: a good interval joins the history, a bad one clears it, and the eighth
good interval locks, forms the first prediction and opens its window (R5, R6, R8, R9). -/
def Obligations.PulseAcquires : Prop :=
  ∀ s : State, s.tracker.ref = .acquiring → ∃ t, exec .epochPulse s = .next t ∧
    let now := s.tracker.tick
    let good : List Nat :=
      match s.tracker.lastPulse with
      | none => []
      | some l =>
        if 9999000 ≤ (now - l).toNat ∧ (now - l).toNat ≤ 10001000 then ((now - l).toNat :: s.tracker.history).take 8 else []
    t.tracker.tick = now ∧ t.tracker.anchor = some { start := tickFx now, kind := .pulse } ∧
    t.tracker.current = s.tracker.next ∧ t.tracker.history = good ∧
    (good.length = 8 →
      t.tracker.ref = .locked ∧ t.tracker.h = 0 ∧ t.tracker.lastPulse = none ∧ t.tracker.window = some s.mgmt.params.w ∧
      t.tracker.next = some { pred := fxAdd (tickFx now) (good.sum * 8192 : Nat), sum8 := good.sum }) ∧
    (good.length ≠ 8 →
      t.tracker.ref = .acquiring ∧ t.tracker.lastPulse = some now ∧ t.tracker.window = none ∧ t.tracker.next = none)

/-- A pulse inside the open window, PT − W to PT + W, is accepted: the interval from a PULSE anchor joins the history if it is
good, the anchor is the pulse's tick, the state is LOCKED with h 0, the grid moves on, and the next prediction is formed from
the new anchor and the new Sum8 (R8, R9, R10).
A pulse outside the open window adds 1 to STRAY_PULSES, which holds at 65535, and changes nothing else; a pulse in NO_CLOCK
changes nothing at all (R3, R11). -/
def Obligations.PulseInAndOutOfWindow : Prop :=
  (∀ (s : State) (w : Nat) (g : Grid), s.tracker.ref = .locked ∨ s.tracker.ref = .holdover → s.tracker.window = some w →
    s.tracker.next = some g → (s.tracker.tick - (fxTick g.pred - BitVec.ofNat 56 w)).toNat ≤ 2 * w →
    s.tracker.history.length = 8 → ∃ t, exec .epochPulse s = .next t ∧
    let now := s.tracker.tick
    let history : List Nat :=
      match s.tracker.anchor with
      | some a =>
        let d := (now - fxTick a.start).toNat
        if a.kind = .pulse ∧ 9999000 ≤ d ∧ d ≤ 10001000 then (d :: s.tracker.history).take 8 else s.tracker.history
      | none => s.tracker.history
    t.tracker.tick = now ∧ t.tracker.anchor = some { start := tickFx now, kind := .pulse } ∧ t.tracker.history = history ∧
    t.tracker.ref = .locked ∧ t.tracker.h = 0 ∧ t.tracker.current = some g ∧
    t.tracker.next = some { pred := fxAdd (tickFx now) (history.sum * 8192 : Nat), sum8 := history.sum } ∧
    t.tracker.window = some s.mgmt.params.w) ∧
  ∀ s : State,
    (s.tracker.ref = .locked ∨ s.tracker.ref = .holdover →
      (∀ w g, s.tracker.window = some w → s.tracker.next = some g →
        2 * w < (s.tracker.tick - (fxTick g.pred - BitVec.ofNat 56 w)).toNat) →
      exec .epochPulse s = .next (s.setMgmt { s.mgmt with counters := { s.mgmt.counters with
        strayPulses := if s.mgmt.counters.strayPulses = 65535 then 65535 else s.mgmt.counters.strayPulses + 1 } })) ∧
    (s.tracker.ref = .noClock → exec .epochPulse s = .next s)

/-- At tick PT + W + 1 the epoch starts on its prediction: the anchor is Pred with its fraction, kind HOLDOVER; h counts; at or
below H the state is HOLDOVER and the next prediction is formed from Pred; HOLDOVER latches only from LOCKED (R12). Other
alarms: EPOCH_RENUMBERED if the start renumbers. -/
def Obligations.HoldoverStarts : Prop :=
  ∀ (s : State) (w : Nat) (g : Grid), s.tracker.ref = .locked ∨ s.tracker.ref = .holdover → s.tracker.window = some w →
    s.tracker.next = some g → s.tracker.tick = fxTick g.pred + BitVec.ofNat 56 (w + 1) → s.tracker.history.length = 8 →
    (if s.tracker.ref = .locked then 1 else s.tracker.h + 1) ≤ s.mgmt.params.h → ∃ t,
    exec .holdoverEpochStart s = .next t ∧
    t.tracker.anchor = some { start := g.pred, kind := .holdover } ∧ t.tracker.history = s.tracker.history ∧
    t.tracker.ref = .holdover ∧ t.tracker.h = (if s.tracker.ref = .locked then 1 else s.tracker.h + 1) ∧
    t.tracker.current = some g ∧
    t.tracker.next = some { pred := fxAdd g.pred (s.tracker.history.sum * 8192 : Nat), sum8 := s.tracker.history.sum } ∧
    t.tracker.window = some s.mgmt.params.w ∧
    t.mgmt.alarms = (s.mgmt.alarms ||| (if s.tracker.ref = .locked then 2 else 0)) |||
      (if s.tracker.renumbers = true then 16 else 0)

/-- Where h then exceeds H, holdover expires: HOLDOVER_EXPIRED latches, the history, the grid, the prediction and the window
are gone, h is 0, the state is ACQUIRING, every batch ends, and every key is released (R12, R13, R77, R104, R117). A running
probe is aborted (R148), and where the start neither renumbers nor begins a cycle, each open slot of the array's cycle is
recorded where no entry stands, as at a clock loss (R104). -/
def Obligations.HoldoverExpires : Prop :=
  ∀ (s : State) (w : Nat) (g : Grid), s.tracker.ref = .locked ∨ s.tracker.ref = .holdover → s.tracker.window = some w →
    s.tracker.next = some g → s.tracker.tick = fxTick g.pred + BitVec.ofNat 56 (w + 1) →
    s.mgmt.params.h < (if s.tracker.ref = .locked then 1 else s.tracker.h + 1) →
    Scheduled s → BlocksAccounted s → ProbeHoldsKey s → ∃ t,
    exec .holdoverEpochStart s = .next t ∧
    t.tracker.ref = .acquiring ∧ t.tracker.history = [] ∧ t.tracker.current = none ∧ t.tracker.next = none ∧
    t.tracker.window = none ∧ t.tracker.h = 0 ∧ t.tracker.lastPulse = none ∧
    t.tracker.anchor = some { start := g.pred, kind := .holdover } ∧
    t.mgmt.alarms = ((s.mgmt.alarms ||| (if s.tracker.ref = .locked then 2 else 0)) ||| 4) |||
      (if s.tracker.renumbers = true then 16 else 0) ∧
    t.batches = [] ∧ t.store.freeCount = 2048 ∧ t.align = s.align ∧
    ∀ c, Idle (t.car c) ∧ (t.car c).key = .released ∧ (t.car c).sched.openSlots = [] ∧ (t.car c).power = (s.car c).power ∧
      (t.car c).marker = (s.car c).marker ∧ ProbeAborted s t.probe ∧
      (s.tracker.renumbers = false → (∀ m, numberTaken s = some m → m.toNat % 4 ≠ 0) →
        SlotsRecorded { s.tracker with current := some g, next := none } c s t)

/-- Every epoch start, of either kind, takes the pending number, or one more modulo 2^32, or stays UNSET; it withdraws the
pending number, and then the mismatch run is 0 (R14). -/
def Obligations.EpochNumberTaken : Prop :=
  ∀ (e : Instr) (s : State), StartsEpoch e s → ∃ t, exec e s = .next t ∧
    t.tracker.epoch = (match s.tracker.pending with
      | some p => some p.number
      | none => s.tracker.epoch.map fun n => n + 1) ∧
    t.tracker.pending = none ∧
    t.tracker.mismatchRun = (if s.tracker.pending.isSome then 0 else s.tracker.mismatchRun)

/-- An epoch start that applies an ADOPT or FORCED number other than the one the epoch would have taken is a renumbering:
EPOCH_RENUMBERED latches, every batch ends and the store is all FREE, claims, stacks and open slots are emptied, the outcome
arrays are labelled with the new cycle, and every key but a probe's is released with its runs (R15, R78, R105, R117; open
slots of another cycle: log 15). -/
def Obligations.RenumberingFlushes : Prop :=
  ∀ (e : Instr) (s : State) (p : PendingNumber) (n : EpochNo), StartsEpoch e s → s.tracker.pending = some p →
    s.tracker.epoch = some n → p.kind ≠ .markSet → p.number ≠ n + 1 → Scheduled s → BlocksAccounted s → ∃ t,
    exec e s = .next t ∧ t.tracker.epoch = some p.number ∧ t.mgmt.alarms &&& 16 = 16 ∧ t.batches = [] ∧
    t.store.freeCount = 2048 ∧ t.align = s.align ∧
    ∀ c, EmptyMap (t.car c).maps.current ∧ EmptyMap (t.car c).maps.next ∧ (t.car c).sched.onAir = none ∧
      (t.car c).sched.incoming = none ∧ (t.car c).sched.stack = [] ∧ (t.car c).sched.openSlots = [] ∧
      (t.car c).sched.outcomes.label = some (cycleOf p.number) ∧
      (∀ i : Fin 32, (t.car c).sched.outcomes.entries.get i = none) ∧
      ((s.car c).key ≠ .probe → (t.car c).key = .released ∧ NoRuns (t.car c).timer) ∧
      (t.car c).power = (s.car c).power ∧ (t.car c).marker = (s.car c).marker

/-- At every epoch start, by a pulse or on prediction, that takes a multiple of 4 or renumbers, and at which holdover does not
expire, every outcome array is cleared under the new label; one report is offered to the own queue for each carrier
whose array was labelled and whose reports are on; and where the start does not renumber, these are, in carrier order, the
reports of the arrays with the open slots of their cycle recorded; the reports that find the queue at its 8 frames are dropped and
counted in OWN_DROPS (R102, R103, R159). That an array with no label sends no report and takes the new label, where
slot 31 is still open at an early start too, is the model's choice (log 46). -/
def Obligations.CycleReportsSent : Prop :=
  ∀ (e : Instr) (s : State) (m : EpochNo), StartsEpoch e s → numberTaken s = some m →
    s.tracker.renumbers = true ∨ m.toNat % 4 = 0 →
    (e = .holdoverEpochStart → (if s.tracker.ref = .locked then 1 else s.tracker.h + 1) ≤ s.mgmt.params.h) →
    ∃ t, exec e s = .next t ∧
    (∀ c, (t.car c).sched.outcomes.label = some (cycleOf m) ∧
      ∀ i : Fin 32, (t.car c).sched.outcomes.entries.get i = none) ∧
    (s.link.own.length ≤ 8 →
      let n := s.link.own.length +
        ([Carrier.c1, .c2, .c3, .c4].filter fun c => (s.car c).sched.outcomes.label.isSome && (s.par c).reports).length
      t.link.own.length = min 8 n ∧
      t.mgmt.counters.ownDrops.toNat = min 65535 (s.mgmt.counters.ownDrops.toNat + (n - 8)) ∧
      (s.tracker.renumbers = false → t.link.own = List.take 8 (s.link.own ++ [Carrier.c1, .c2, .c3, .c4].filterMap fun c =>
        (s.car c).sched.outcomes.label.bind fun n =>
          if (s.par c).reports = true then
            some (reportFrame c n ((s.setMgmt t.mgmt).modCar c fun k => { k with sched := { k.sched with
              outcomes := (k.sched.openSlots.filter fun o => o.slot.cycle = n).foldl OutcomeArray.record k.sched.outcomes } }))
          else none)))

/-- A cycle report is a broadcast of kind 81h, tag 0, from the site address, with a good check; its body of 134 octets carries
the attention flag in bit 0 and STORE_LOW in bit 1, the carrier, the cycle in four octets, and 32 entries in slot order, each
a code, a presence octet and a batch id, all 0 for an empty entry (R103, R159, R161; an id that is not present is 0 by the model's
choice: log 51).
The attention flag is set exactly while some latched alarm is not masked (R159, R172), and a reply carries it in bit 0 of
its first body octet, with the request's source, kind and tag and a good check (R154, R159, R165).
A check is good exactly where it is the remainder over the octets from destination to the last body octet, taken bit by bit,
most significant first, with generator x^16 + x^12 + x^5 + 1 and preset FFFFh (R154). -/
def Obligations.OwnFramesFormed : Prop :=
  (∀ bs : List Byte, crc bs = (bs.flatMap fun b => (List.range 8).map fun i => b.getLsbD (7 - i)).foldl
    (fun (r : BitVec 16) bit => if r.msb = bit then r <<< 1 else (r <<< 1) ^^^ 0x1021) 0xFFFF) ∧
  (∀ f : Frame, goodFrame f = true ↔ f.check =
    crc (f.dest.extractLsb' 4 8 :: (f.dest.extractLsb' 0 4 ++ f.src.extractLsb' 8 4) :: f.src.extractLsb' 0 8 ::
      f.kind :: f.tag :: f.body)) ∧
  (∀ (c : Carrier) (n : CycleNo) (s : State),
    let f := reportFrame c n s
    f.dest = 4095 ∧ f.src = s.link.siteAddress ∧ f.kind = 0x81 ∧ f.tag = 0 ∧ goodFrame f = true ∧ f.body.length = 134 ∧
    f.body[0]? = some ((if attention s then 1 else 0) + (if s.store.low then 2 else 0)) ∧
    f.body[1]? = some (BitVec.ofNat 8 (carrierNumber c)) ∧
    (f.body.drop 2).take 4 = octets 4 n.toNat ∧
    ∀ i : Fin 32, (f.body.drop (6 + 4 * i.val)).take 4 =
      (match (s.car c).sched.outcomes.entries.get i with
        | none => [0, 0, 0, 0]
        | some o => BitVec.ofNat 8 (codeNumber o.code) ::
          (match o.id with
            | none => [0, 0, 0]
            | some b => 1 :: octets 2 b.toNat))) ∧
  ∀ (k : Byte) (f : RxFrame) (code : Byte) (content : List Byte) (t : State),
    (attention t = true ↔ ∃ i : Fin 32, t.mgmt.alarms.getLsbD i = true ∧ t.mgmt.params.mask.getLsbD i = false) ∧
    (replyTo k f code content t).dest = f.src ∧ (replyTo k f code content t).src = t.link.siteAddress ∧
    (replyTo k f code content t).kind = 0x80 ∧ (replyTo k f code content t).tag = f.tag ∧
    (replyTo k f code content t).body = (if attention t = true then 1 else 0) :: k :: code :: content ∧
    goodFrame (replyTo k f code content t) = true

/-! ### Frames on the link (R153 to R160, R165) -/

/-- For every frame row of UP, UNKNOWN_REQUEST with its kinds among them: a bad frame, or one to destination 0, adds 1 to
BAD_FRAMES and is dropped; a good frame for another site joins the repeat store and is not taken; in each case the receiver
hunts again and nothing else changes (R153, R155, R156; the whole frame in one command: log 7). -/
def Obligations.UntakenFramesFiltered : Prop :=
  ∀ (k : Byte) (row : RxFrame → Instr), (k, row) ∈ upRows ∨ (kindUnknown k = true ∧ row = Instr.unknownRequest k) →
    ∀ (f : RxFrame) (s : State),
    let u := s.setLink { s.link with rxUp := .hunt }
    (goodFrame (f.withKind k) = false ∨ f.dest = 0 →
      exec (row f) s = .next (u.setMgmt { s.mgmt with counters := { s.mgmt.counters with
        badFrames := satInc s.mgmt.counters.badFrames } })) ∧
    (goodFrame (f.withKind k) = true → f.dest ≠ 0 → f.dest ≠ 4095 → f.dest ≠ s.link.siteAddress →
      exec (row f) s = .next (s.setLink { s.link with
        rxUp := .hunt, repeatStore := s.link.repeatStore ++ [f.withKind k] }))

/-- A taken traffic frame whose body length is not its layout's reaches no block and adds 1 to the unmatched count of its kind
(R157; that it also counts as taken: log 13).
A taken request whose body is shorter than its layout is counted and answered BAD_ARGUMENT with no content, before its
owner is reached (R157, R165; for STANDBY and PROBE_START: log 34).
A frame of an undefined kind, or of kind REPLY or CYCLE_REPORT, is counted as a request and answered UNKNOWN_REQUEST with
no content; nothing else changes (R157, R165). -/
def Obligations.OddBodiesAnswered : Prop :=
  (∀ r ∈ trafficRows, ∀ (f : RxFrame) (s : State), Takes r.2.1 f s → f.body.length ≠ r.2.2.1 →
    exec (r.2.2.2 f) s = .next (countUnmatched r.1 (carried r.1 r.2.1 f s))) ∧
  (∀ r ∈ layoutRows, ∀ (f : RxFrame) (s : State), Takes r.1 f s → f.body.length < r.2.1 →
    exec (r.2.2 f) s = .next (replied r.1 f 0x02 [] (requested r.1 f s))) ∧
  ∀ (k : Byte) (f : RxFrame) (s : State), kindUnknown k = true → Takes k f s →
    exec (.unknownRequest k f) s = .next (replied k f 0x0D [] (requested k f s))

/-- SYNC_WORD_MATCH: a port in HUNT whose last 16 bits are A5C3h goes to IN_FRAME with no byte taken; a port IN_FRAME, or other
bits, change nothing (R153; the receiver as state: log 7). -/
def Obligations.SyncStartsFrame : Prop :=
  ∀ s : State,
    (s.link.rxUp = .hunt → exec (.syncWordMatch .up 0xA5C3) s = .next (s.setLink { s.link with rxUp := .inFrame [] })) ∧
    (s.link.rxDown = .hunt →
      exec (.syncWordMatch .down 0xA5C3) s = .next (s.setLink { s.link with rxDown := .inFrame [] })) ∧
    (∀ b, s.link.rxUp = .inFrame b → exec (.syncWordMatch .up 0xA5C3) s = .next s) ∧
    (∀ b, s.link.rxDown = .inFrame b → exec (.syncWordMatch .down 0xA5C3) s = .next s) ∧
    (∀ p w, w ≠ 0xA5C3 → exec (.syncWordMatch p w) s = .next s)

/-- DOWN_FRAME_RELAY: a good frame joins the relay queue unchanged if it holds fewer than 8, else RELAY_DROPS rises by 1 and the
queued frames are kept; a bad frame adds 1 to BAD_FRAMES; in each case the receiver hunts again (R153, R158, R160; log 7).
-/
def Obligations.DownFrameRelayed : Prop :=
  ∀ (f : Frame) (s : State),
    let u := s.setLink { s.link with rxDown := .hunt }
    (goodFrame f = true → s.link.relay.length < 8 →
      exec (.downFrameRelay f) s = .next (u.setLink (chooseIfIdle { u.link with relay := s.link.relay ++ [f] }))) ∧
    (goodFrame f = true → 8 ≤ s.link.relay.length →
      exec (.downFrameRelay f) s = .next (u.setMgmt { s.mgmt with counters := { s.mgmt.counters with
        relayDrops := satInc s.mgmt.counters.relayDrops } })) ∧
    (goodFrame f = false →
      exec (.downFrameRelay f) s = .next (u.setMgmt { s.mgmt with counters := { s.mgmt.counters with
        badFrames := satInc s.mgmt.counters.badFrames } }))

/-- The repeat on DOWN: the frame received first is sent first, one at a time, and leaves the store at its end (R156).
The upstream arbiter: an IDLE transmitter starts the oldest frame of the queue chosen; with none chosen before, that is the
one queue that holds frames, or the turn's when both do. The end of a frame leaves the turn with the other queue (R160; the
tick at which the turn moves: log 11). -/
def Obligations.LinkTransmits : Prop :=
  (∀ (s : State) (f : Frame) (rest : List Frame), s.link.repeatStore = f :: rest →
    (s.link.repeating = false → exec .repeatTxStart s = .next (s.setLink { s.link with repeating := true })) ∧
    (s.link.repeating = true →
      exec .repeatTxEnd s = .next (s.setLink { s.link with repeating := false, repeatStore := rest }))) ∧
  ∀ s : State,
    (∀ f rest, s.link.sending = none → s.link.own = f :: rest →
      s.link.chosen = some .own ∨ (s.link.chosen = none ∧ (s.link.relay = [] ∨ s.link.turn = .own)) →
      exec .upTxStart s = .next (s.setLink { s.link with own := rest, sending := some (.own, f), chosen := none })) ∧
    (∀ f rest, s.link.sending = none → s.link.relay = f :: rest →
      s.link.chosen = some .relay ∨ (s.link.chosen = none ∧ (s.link.own = [] ∨ s.link.turn = .relay)) →
      exec .upTxStart s = .next (s.setLink { s.link with relay := rest, sending := some (.relay, f), chosen := none })) ∧
    (∀ f, s.link.sending = some (.own, f) → s.link.chosen = none → ∃ t, exec .upTxEnd s = .next t ∧
      t = s.setLink { s.link with sending := none, turn := .relay, chosen := t.link.chosen } ∧
      (t.link.chosen = none ↔ s.link.own = [] ∧ s.link.relay = []) ∧
      (s.link.relay ≠ [] → t.link.chosen = some .relay)) ∧
    (∀ f, s.link.sending = some (.relay, f) → s.link.chosen = none → ∃ t, exec .upTxEnd s = .next t ∧
      t = s.setLink { s.link with sending := none, turn := .own, chosen := t.link.chosen } ∧
      (t.link.chosen = none ↔ s.link.own = [] ∧ s.link.relay = []) ∧
      (s.link.own ≠ [] → t.link.chosen = some .own))

/-! ### Time marks and EPOCH_SET (R17 to R20) -/

/-- A mark taken in NO_CLOCK, or timed after the guard instant (PT less 500,000 ticks in LOCKED and HOLDOVER, the last pulse
plus 9,500,000 in ACQUIRING), adds 1 to MARKS_REJECTED and has no other effect on the part (R17). A mark timed at or before the
guard instant, or taken in ACQUIRING with no last pulse, passes the guard (R17): with the number UNSET it sets MARK_SET unless a FORCED number is held (R18); a match clears the run and withdraws an
ADOPT; a mismatch latches EPOCH_MISMATCH, records the offset, and counts the run to 3, where it sets an ADOPT unless a
FORCED number is held (R19). "After" is read on the 2^56 circle (log 4). -/
def Obligations.TimeMarkJudged : Prop :=
  (∀ (f : RxFrame) (s : State), Takes 0x01 f s → f.body.length = 4 →
    (s.tracker.ref = .noClock ∨
      (∃ g, (s.tracker.ref = .locked ∨ s.tracker.ref = .holdover) ∧ s.tracker.next = some g ∧
        s.tracker.tick ≠ fxTick g.pred - BitVec.ofNat 56 500000 ∧
        tickReached s.tracker.tick (fxTick g.pred - BitVec.ofNat 56 500000) = true) ∨
      (∃ l, s.tracker.ref = .acquiring ∧ s.tracker.lastPulse = some l ∧ s.tracker.tick ≠ l + BitVec.ofNat 56 9500000 ∧
        tickReached s.tracker.tick (l + BitVec.ofNat 56 9500000) = true)) →
    exec (.timeMark f) s = .next (countMarkRejected (carried .timeMark 0x01 f s))) ∧
  (∀ t : Tracker, MarkPasses t → t.rejectsMark = false) ∧
  ∀ (f : RxFrame) (s : State), Takes 0x01 f s → f.body.length = 4 → MarkPasses s.tracker ∨ s.tracker.rejectsMark = false →
    let n := BitVec.ofNat 32 (field f.body 0 4)
    let u := carried .timeMark 0x01 f s
    let t := s.tracker
    (t.epoch = none →
      exec (.timeMark f) s = .next (u.setTracker { t with
        pending := (if t.pending.map PendingNumber.kind = some .forced then t.pending
          else some { kind := .markSet, number := n }) })) ∧
    (∀ e, t.epoch = some e → n = e + 1 →
      exec (.timeMark f) s = .next (u.setTracker { t with
        mismatchRun := 0, pending := (if t.pending.map PendingNumber.kind = some .adopt then none else t.pending) })) ∧
    (∀ e, t.epoch = some e → n ≠ e + 1 →
      let offset := n - (e + 1)
      let run := if t.mismatchRun = 0 ∨ offset ≠ t.mismatchOffset then 1 else min (t.mismatchRun + 1) 3
      exec (.timeMark f) s = .next ((u.setTracker { t with
        mismatchRun := run, mismatchOffset := offset
        pending := (if t.pending.map PendingNumber.kind = some .forced then t.pending
          else if run = 1 then (if t.pending.map PendingNumber.kind = some .adopt then none else t.pending)
          else if run = 3 then some { kind := .adopt, number := n } else t.pending) }).setMgmt
        { u.mgmt with alarms := u.mgmt.alarms ||| 8 }))

/-- EPOCH_SET in ACQUIRING, LOCKED or HOLDOVER sets a FORCED number in any service state, replacing any pending number, and is
answered OK; in NO_CLOCK it is refused NO_TIMING and changes nothing (R20). -/
def Obligations.EpochSetForces : Prop :=
  ∀ (f : RxFrame) (s : State), Takes 0x2C f s → 4 ≤ f.body.length →
    let u := requested 0x2C f s
    (s.tracker.ref ≠ .noClock →
      exec (.epochSet f) s = .next (replied 0x2C f 0x00 [] (u.setTracker { s.tracker with
        pending := some { kind := .forced, number := BitVec.ofNat 32 (field f.body 0 4) } }))) ∧
    (s.tracker.ref = .noClock → exec (.epochSet f) s = .next (replied 0x2C f 0x0C [] u))

/-! ### The Alignment Table (R43 to R56) -/

/-- A LOAD_ALIGN that passes its checks, with no switch pending, writes G, C and the rows it carries into the staged record of
its carrier, each value clamped to its range, and nothing else; the reply is CLAMPED exactly when a value was out of range
(R43, R44, R157).
A LOAD_ALIGN with a carrier, first group or count out of range, a count other than the rows carried, or rows past group 15
is refused BAD_ARGUMENT; one that passes these while a switch is pending is refused STAGED_LOCKED. Neither writes anything
(R43). -/
def Obligations.LoadAlignJudged : Prop :=
  (∀ (f : RxFrame) (s : State) (c : Carrier) (first count : Nat), Takes 0x28 f s → 11 ≤ f.body.length →
    carrierOf (field f.body 0 1) = some c → field f.body 9 1 = first → field f.body 10 1 = count → 1 ≤ count →
    first + count ≤ 16 → (f.body.length - 11) / 5 = count → s.align.pending = none →
    ∃ (r : CarrierRecord) (code : Byte),
      exec (.loadAlign f) s = .next (replied 0x28 f code [] ((requested 0x28 f s).setAlign { s.align with
        staged := { s.align.staged with records := s.align.staged.records.set c r } })) ∧
      (r.gain.toNat : Int) = max 0 (min 65535 (signedField f.body 1)) ∧
      r.centre = max (-16384) (min 16383 (signedField f.body 5)) ∧
      (∀ j : Fin 16,
        (first ≤ j.val ∧ j.val < first + count →
          (r.rows.get j).enabled = (field f.body (11 + 5 * (j.val - first)) 1 != 0) ∧
          (r.rows.get j).offset =
            max (-2500000) (min 2500000 (signedField f.body (12 + 5 * (j.val - first))))) ∧
        (j.val < first ∨ first + count ≤ j.val →
          r.rows.get j = (s.align.staged.records.get c).rows.get j)) ∧
      (code = 0x00 ∨ code = 0x01) ∧
      (code = 0x00 ↔
        (0 ≤ signedField f.body 1 ∧ signedField f.body 1 ≤ 65535) ∧
        (-16384 ≤ signedField f.body 5 ∧ signedField f.body 5 ≤ 16383) ∧
        ∀ i < count, -2500000 ≤ signedField f.body (12 + 5 * i) ∧ signedField f.body (12 + 5 * i) ≤ 2500000)) ∧
  ∀ (f : RxFrame) (s : State), Takes 0x28 f s → 11 ≤ f.body.length →
    let good := (1 ≤ field f.body 0 1 ∧ field f.body 0 1 ≤ 4) ∧ 1 ≤ field f.body 10 1 ∧
      field f.body 9 1 + field f.body 10 1 ≤ 16 ∧ (f.body.length - 11) / 5 = field f.body 10 1
    (¬ good → exec (.loadAlign f) s = .next (replied 0x28 f 0x02 [] (requested 0x28 f s))) ∧
    (good → s.align.pending.isSome = true →
      exec (.loadAlign f) s = .next (replied 0x28 f 0x06 [] (requested 0x28 f s)))

/-- The start epoch of a commit is the smallest multiple of 4 at or after E, modulo 2^32 (R46). COMMIT_ALIGN, in time or late:
it is in time when timing is available, S is ahead of the current epoch, and, for the very next epoch, Pred(S) exists and
the roll tick lies ahead. In time it sets the switch and the staged tag and answers OK with S; late it withdraws any switch,
returns the staged tag and answers LATE_COMMIT with S. No bank's records change (R42, R46, R47; "ahead" for ticks is read on
the 2^56 circle: log 4). -/
def Obligations.CommitAlignJudged : Prop :=
  (∀ e : EpochNo, (nextCycleStart e).toNat % 4 = 0 ∧ (nextCycleStart e - e).toNat < 4 ∧
    (4294967292 < e.toNat → nextCycleStart e = 0)) ∧
  ∀ (f : RxFrame) (s : State), Takes 0x29 f s → 6 ≤ f.body.length →
    let target := nextCycleStart (BitVec.ofNat 32 (field f.body 0 4))
    let version := BitVec.ofNat 16 (field f.body 4 2)
    let inTime := ∃ e, s.tracker.epoch = some e ∧ (s.tracker.ref = .locked ∨ s.tracker.ref = .holdover) ∧
      (1 ≤ (target - e).toNat ∧ (target - e).toNat ≤ 2147483647) ∧
      (target = e + 1 → ∃ g, s.tracker.next = some g ∧
        tickReached s.tracker.tick (fxTick g.pred - BitVec.ofNat 56 1225001) = false)
    (inTime →
      exec (.commitAlign f) s = .next (replied 0x29 f 0x00 (octets 4 target.toNat)
        ((requested 0x29 f s).setAlign { s.align with
          pending := some { target := target, version := version }, staged := { s.align.staged with tag := version } }))) ∧
    (¬ inTime →
      exec (.commitAlign f) s = .next (replied 0x29 f 0x05 (octets 4 target.toNat)
        ((requested 0x29 f s).setAlign { s.align with
          pending := none, staged := { s.align.staged with tag := s.align.active.tag } })))

/-- READ_ALIGN with its arguments in range is answered OK with G, C, the named rows, the bank's tag and the pending switch of
the named bank, 13 octets and 5 more a row; it changes nothing. Out of range it is refused BAD_ARGUMENT (R51, R165). That the
octets 'enabled' and 'switch pending' are 1 for set and 0 for clear is the model's choice (log 49), and so is that S and V are 0
where no switch is pending (log 51). -/
def Obligations.ReadAlignAnswered : Prop :=
  ∀ (f : RxFrame) (s : State), Takes 0x2A f s → 4 ≤ f.body.length →
    let first := field f.body 2 1
    let count := field f.body 3 1
    let bank := if field f.body 0 1 = 0 then s.align.active else s.align.staged
    (∀ c, field f.body 0 1 ≤ 1 → carrierOf (field f.body 1 1) = some c → 1 ≤ count → first + count ≤ 16 →
      ∃ content,
        exec (.readAlign f) s = .next (replied 0x2A f 0x00 content (requested 0x2A f s)) ∧
        content.length = 13 + 5 * count ∧
        content.take 4 = octets 2 (bank.records.get c).gain.toNat ++ signedOctets 2 (bank.records.get c).centre ∧
        (∀ i < count, ∀ j : Fin 16, j.val = first + i →
          (content.drop (4 + 5 * i)).take 5 =
            boolOctet ((bank.records.get c).rows.get j).enabled ++
              signedOctets 4 ((bank.records.get c).rows.get j).offset) ∧
        content.drop (4 + 5 * count) = octets 2 bank.tag.toNat ++
          (match s.align.pending with
           | some p => 1 :: octets 4 p.target.toNat ++ octets 2 p.version.toNat
           | none => [0, 0, 0, 0, 0, 0, 0])) ∧
    (1 < field f.body 0 1 ∨ carrierOf (field f.body 1 1) = none ∨ count = 0 ∨ 16 < first + count →
      exec (.readAlign f) s = .next (replied 0x2A f 0x02 [] (requested 0x2A f s)))

/-- TABLE_ROLL at tick Pred(4n) div 65536 − 1,225,001, with timing available, the next number a multiple of 4 and the roll not
yet taken at this tick (log 22): every pending delay becomes the path delay, whether or not the banks switch; a due switch makes
the staged records active under V and the staged bank a copy, and each carrier whose KEY line is released drives the new C;
without a due switch the banks, the pending switch and the words stand (R38, R42, R45, R48, R56). A switch is due where 4n is at
or ahead of its target and stays pending where the target is ahead of 4n: the model's reading of R48 (log 52). -/
def Obligations.TableRollTaken : Prop :=
  ∀ (s : State) (e : EpochNo) (g : Grid), s.tracker.ref = .locked ∨ s.tracker.ref = .holdover → s.tracker.epoch = some e →
    s.tracker.next = some g → (e + 1).toNat % 4 = 0 → s.tracker.tick = fxTick g.pred - BitVec.ofNat 56 1225001 →
    s.align.lastRoll ≠ some s.tracker.tick → ∃ t, exec .tableRoll s = .next t ∧
    t = (s.setAlign t.align).setCarriers t.carriers ∧ t.align.lastRoll = some s.tracker.tick ∧
    (∀ c, t.align.delays.get c =
      { value := (s.align.delays.get c).pending.getD (s.align.delays.get c).value, pending := none }) ∧
    (∀ p, s.align.pending = some p → p.target = e + 1 ∨ 2147483648 ≤ (p.target - (e + 1)).toNat →
      t.align.active = { s.align.staged with tag := p.version } ∧ t.align.staged = t.align.active ∧ t.align.pending = none ∧
      ∀ c, t.car c = { s.car c with
        word := (if keyLine (s.car c).key then (s.car c).word
          else centreWord { gain := (s.align.staged.records.get c).gain
                            centre := (s.align.staged.records.get c).centre }) }) ∧
    ((∀ p, s.align.pending = some p → 1 ≤ (p.target - (e + 1)).toNat ∧ (p.target - (e + 1)).toNat ≤ 2147483647) →
      t.align.active = s.align.active ∧ t.align.staged = s.align.staged ∧ t.align.pending = s.align.pending ∧
      t.carriers = s.carriers)

/-! ### Batches and the Symbol Store (R58 to R84) -/

/-- A header that passes the twelve checks, for the next cycle or for a slot of the current one not yet late, with no claimant
on its slot and the carrier's maps labelled with its current cycle: a PENDING record with the header's fields, a claim in
the map of its cycle, and the wake of a carrier in STANDBY; nothing else changes (R63 to R69, R122; a settled slot is late:
log 16). -/
def Obligations.HeaderAccepted : Prop :=
  ∀ (f : RxFrame) (s : State) (c : Carrier) (h : HeaderFields) (m : CycleNo), Takes 0x02 f s → f.body.length = 11 →
    let w := headerFrame f.body
    carrierOf w.carrier = some c → s.mgmt.service = .serving → timingAvailable s = true → (s.par c).enabled = true →
    headerFields w = some h →
    ((s.align.active.records.get c).rows.get h.group).enabled = true ∨
      (s.align.pending.isSome = true ∧ ((s.align.staged.records.get c).rows.get h.group).enabled = true) →
    currentCycle c s = some m → (s.car c).maps.label = some m → h.start.val + h.slots ≤ 32 →
    (s.par c).markerSlot ≠ some h.start → findBatch w.id s = none → s.batches.length < 64 →
    let accepted (n : CycleNo) (maps : ClaimMaps) : State :=
      ((carried .batchHeader 0x02 f s).setBatches (insertRecord
        { id := w.id, carrier := c, cycle := n, start := h.start, slots := h.slots, group := h.group, priority := h.priority,
          rate := h.rate, modulation := h.modulation, blocks := List.replicate (h.slots * h.rate.blocks) none, last := none,
          nextBlock := 0, malformed := false, starved := false, cancelPending := false, completion := none,
          state := .pending } s.batches)).setCar c { s.car c with
        maps := maps
        power := (if (s.car c).power = .standby then
            (if (s.par c).wake = 0 then .active
              else .awakening (s.tracker.tick + BitVec.ofNat 56 ((s.par c).wake * 100000)))
          else (s.car c).power) }
    (w.cycle = (m + 1).toNat % 65536 → (s.car c).maps.next.get h.start = none →
      exec (.batchHeader f) s = .next (accepted (m + 1)
        { (s.car c).maps with next := (s.car c).maps.next.set h.start.val (some w.id) h.start.isLt })) ∧
    (w.cycle = m.toNat % 65536 → ¬ Late c m h.start s → (s.car c).maps.current.get h.start = none →
      exec (.batchHeader f) s = .next (accepted m
        { (s.car c).maps with current := (s.car c).maps.current.set h.start.val (some w.id) h.start.isLt }))

/-- A header that passes the checks while its slot has a claimant it outranks, or under REPLACE whatever the priorities: the
claimant ends REPLACED, its blocks FREE and DROPPED risen by 1, and the newcomer is a PENDING record that holds the claim
(R60, R68, R69). -/
def Obligations.HeaderReplacesClaimant : Prop :=
  ∀ (f : RxFrame) (s : State) (c : Carrier) (h : HeaderFields) (m : CycleNo) (b : Batch), Takes 0x02 f s → f.body.length = 11 →
    let w := headerFrame f.body
    let u := carried .batchHeader 0x02 f s
    let forNext := w.cycle = (m + 1).toNat % 65536 ∧ (s.car c).maps.next.get h.start = some b.id
    let forCurrent := w.cycle = m.toNat % 65536 ∧ ¬ Late c m h.start s ∧
      (s.car c).maps.current.get h.start = some b.id
    carrierOf w.carrier = some c → s.mgmt.service = .serving → timingAvailable s = true → (s.par c).enabled = true →
    headerFields w = some h →
    ((s.align.active.records.get c).rows.get h.group).enabled = true ∨
      (s.align.pending.isSome = true ∧ ((s.align.staged.records.get c).rows.get h.group).enabled = true) →
    currentCycle c s = some m → (s.car c).maps.label = some m → h.start.val + h.slots ≤ 32 →
    (s.par c).markerSlot ≠ some h.start → findBatch w.id s = none → s.batches.length < 64 → Scheduled s → BlocksAccounted s →
    findBatch b.id s = some b → b.priority < h.priority ∨ (s.par c).claimMode = .replace → forNext ∨ forCurrent → ∃ t x,
    exec (.batchHeader f) s = .next t ∧ findBatch b.id t = none ∧ findBatch w.id t = some x ∧
    (∀ i, i ≠ b.id → i ≠ w.id → findBatch i t = findBatch i s) ∧
    x.carrier = c ∧ x.start = h.start ∧ x.slots = h.slots ∧ x.priority = h.priority ∧ x.state = .pending ∧ x.last = none ∧
    x.blocks = List.replicate (h.slots * h.rate.blocks) none ∧
    (forNext → x.cycle = m + 1 ∧ (t.car c).maps.next.get h.start = some w.id) ∧
    (forCurrent → x.cycle = m ∧ (t.car c).maps.current.get h.start = some w.id) ∧
    (∀ n, some n ∈ b.blocks → (readBlock n t).tag = .free) ∧
    t.store.freeCount = s.store.freeCount + (b.blocks.filterMap fun x => x).length ∧
    (t.car c).counters = { (s.car c).counters with dropped := satInc (s.car c).counters.dropped } ∧
    (t.car c).sched = (s.car c).sched ∧ (t.car c).key = (s.car c).key ∧ (t.car c).word = (s.car c).word ∧
    t.tracker = s.tracker ∧ t.align = s.align ∧ t.probe = s.probe ∧ t.link = u.link ∧ t.mgmt = u.mgmt ∧
    ∀ d, d ≠ c → t.car d = s.car d

/-- A refused header adds 1 to the REFUSED counter of its carrier for the first check that fails, in the order of the twelve,
and changes no record, claim or block; one whose carrier is outside 1–4 adds 1 to the unmatched count (R63 to R68). A slot of
the current cycle is LATE at or after its decision instant, and where its epoch has started with no grid; one of an epoch not yet
predicted is not (R66). A start slot that is held settled, decided or passed over, is LATE (log 16), and instants are compared on the circle (log 4). -/
def Obligations.HeaderRefusedInOrder : Prop :=
  ∀ (f : RxFrame) (s : State), Takes 0x02 f s → f.body.length = 11 →
    let w := headerFrame f.body
    let u := carried .batchHeader 0x02 f s
    (carrierOf w.carrier = none → exec (.batchHeader f) s = .next (countUnmatched .batchHeader u)) ∧
    ∀ c, carrierOf w.carrier = some c →
      let refused (r : RefuseReason) := exec (.batchHeader f) s = .next (countRefused c r u)
      (s.mgmt.service ≠ .serving → refused .notServing) ∧
      (s.mgmt.service = .serving → timingAvailable s = false → refused .noTiming) ∧
      (s.mgmt.service = .serving → timingAvailable s = true →
        ((s.par c).enabled = false → refused .carrierOff) ∧
        ((s.par c).enabled = true →
          (headerFields w = none → refused .badField) ∧
          ∀ h, headerFields w = some h →
            (groupPasses c h.group s = false → refused .notInGroup) ∧
            ∀ m, groupPasses c h.group s = true → currentCycle c s = some m →
              let d := (w.cycle + 65536 - m.toNat % 65536) % 65536
              let n := if d = 0 then m else m + 1
              (2 ≤ d → d ≤ 32767 → refused .tooEarly) ∧
              (32768 ≤ d → refused .late) ∧
              (d = 0 → Late c m h.start s → refused .late) ∧
              (d = 0 ∧ ¬ Late c m h.start s ∨ d = 1 →
                (32 < h.start.val + h.slots → refused .span) ∧
                (h.start.val + h.slots ≤ 32 →
                  ((s.par c).markerSlot = some h.start → refused .slotReserved) ∧
                  ((s.par c).markerSlot ≠ some h.start →
                    ((findBatch w.id s).isSome = true → refused .duplicate) ∧
                    (findBatch w.id s = none →
                      (64 ≤ s.batches.length → refused .tableFull) ∧
                      (s.batches.length < 64 → ∀ b, claimant c n h.start s = some b → h.priority ≤ b.priority →
                        (s.par c).claimMode = .strict → refused .claimed)))))))

/-- A block frame by the first of the five cases that applies: orphan, malformed, duplicate (which still records an absent last
index), store full, or taken into the lowest-numbered FREE store block (R70 to R73, R80, R81).
A PENDING record becomes COMPLETE, with its completion instant, exactly when its last index is known and every position from
0 to it holds a block; no other record is changed by it (R73). -/
def Obligations.BlockByCase : Prop :=
  (∀ (f : RxFrame) (s : State), Takes 0x03 f s → f.body.length = 15 → StoreCanonical s → TableOrdered s →
    let k := blockFrame f.body
    let u := carried .batchBlock 0x03 f s
    (findBatch k.id s = none → exec (.batchBlock f) s = .next (countUnmatched .batchBlock u)) ∧
    ∀ b, findBatch k.id s = some b →
      let malformed := b.slots * b.rate.blocks ≤ k.index ∨
        (∃ l, b.last = some l ∧ (l.index < k.index ∨ (k.last = true ∧ k.index ≠ l.index))) ∨
        (k.last = true ∧ (k.valid < 1 ∨ 40 < k.valid)) ∨
        (k.last = true ∧ ∃ i, k.index < i ∧ (b.blocks.getD i none).isSome = true)
      let last := if k.last = true ∧ b.last = none then some { index := k.index, count := k.valid } else b.last
      (malformed →
        exec (.batchBlock f) s = .next (countDiscard b.carrier (modBatch k.id (fun x => { x with malformed := true }) u))) ∧
      (¬ malformed → (b.blocks.getD k.index none).isSome = true →
        exec (.batchBlock f) s = .next (countDiscard b.carrier (modBatch k.id
          (fun x => complete s.tracker.tick { x with last := last }) u))) ∧
      (¬ malformed → b.blocks.getD k.index none = none → (∀ n < 2048, (readBlock n s).tag ≠ .free) →
        exec (.batchBlock f) s = .next (countDiscard b.carrier (modBatch k.id (fun x => { x with starved := true }) u))) ∧
      (∀ n, ¬ malformed → b.blocks.getD k.index none = none → n < 2048 → (readBlock n s).tag = .free →
        (∀ j < n, (readBlock j s).tag ≠ .free) → ∃ t, exec (.batchBlock f) s = .next t ∧
        t = (u.setStore t.store).setBatches t.batches ∧
        readBlock n t = { tag := .held k.id k.index, codes := k.codes } ∧ (∀ j, j ≠ n → readBlock j t = readBlock j s) ∧
        t.store.freeCount = s.store.freeCount - 1 ∧
        t.store.low = (if s.store.freeCount - 1 < s.mgmt.params.storeLow then true
          else if s.mgmt.params.storeHigh ≤ s.store.freeCount - 1 then false else s.store.low) ∧
        findBatch k.id t =
          some (complete s.tracker.tick { b with blocks := b.blocks.set k.index (some n), last := last }) ∧
        ∀ id, id ≠ k.id → findBatch id t = findBatch id s)) ∧
  ∀ (now : Tick) (b : Batch),
    (∀ l, b.state = .pending → b.last = some l → (∀ i ≤ l.index, (b.blocks.getD i none).isSome = true) →
      complete now b = { b with state := .complete, completion := some now }) ∧
    (b.state ≠ .pending ∨ b.last = none ∨ (∃ l i, b.last = some l ∧ i ≤ l.index ∧ b.blocks.getD i none = none) →
      complete now b = b)

/-- CANCEL: no record, an unmatched count; ON_AIR, CANCEL_PENDING and nothing else; SUSPENDED, off the stack at its depth and
ended; PENDING or COMPLETE, ended at once. An ended batch leaves the table with its claim, its blocks are FREE again, and
DROPPED of its carrier rises by 1 (R60, R75, R76, R107). The runs that name it are marked ended, and an incoming batch is
absent then (R96, R97). The end of a SUSPENDED or incoming batch is CANCELLED with its id: for the open slots of the runs that
name it, else for the open slots in whose span the tick lies, or, in the span of a slot 31 recorded before, for slot 0 of the next
cycle; any other end gives no code (R100, R101, R102; such a slot 31: log 35). -/
def Obligations.CancelByState : Prop :=
  ∀ (f : RxFrame) (s : State), Takes 0x04 f s → f.body.length = 2 → BlocksAccounted s → Scheduled s →
    let id : BatchId := BitVec.ofNat 16 (field f.body 0 2)
    let u := carried .cancel 0x04 f s
    (findBatch id s = none → exec (.cancel f) s = .next (countUnmatched .cancel u)) ∧
    ∀ b, findBatch id s = some b →
      (b.state = .onAir → exec (.cancel f) s = .next (modBatch id (fun x => { x with cancelPending := true }) u)) ∧
      (b.state ≠ .onAir → ∃ t, exec (.cancel f) s = .next t ∧
        findBatch id t = none ∧ (∀ x, x ≠ id → findBatch x t = findBatch x s) ∧
        (∀ n, some n ∈ b.blocks → (readBlock n t).tag = .free) ∧
        t.store.freeCount = s.store.freeCount + (b.blocks.filterMap fun x => x).length ∧
        (∀ i : Fin 32, (t.car b.carrier).maps.current.get i ≠ some id ∧ (t.car b.carrier).maps.next.get i ≠ some id) ∧
        (t.car b.carrier).sched.stack = (s.car b.carrier).sched.stack.filter (fun x => x ≠ id) ∧
        (t.car b.carrier).sched.onAir = (s.car b.carrier).sched.onAir ∧
        (t.car b.carrier).counters =
          { (s.car b.carrier).counters with dropped := satInc (s.car b.carrier).counters.dropped } ∧
        (t.car b.carrier).key = (s.car b.carrier).key ∧ (t.car b.carrier).word = (s.car b.carrier).word ∧
        t.tracker = s.tracker ∧ t.align = s.align ∧ t.probe = s.probe ∧ t.link = u.link ∧ t.mgmt = u.mgmt ∧
        (∀ d, d ≠ b.carrier → t.car d = s.car d) ∧
        let k := s.car b.carrier
        let slots := (t.car b.carrier).sched.openSlots
        let given (p : SlotRef → Bool) : Prop := slots = coded p { code := .cancelled, id := some id } k.sched.openSlots
        let marked (r : Run) : Run := if r.batchId = some id then { r with ended := true } else r
        (t.car b.carrier).timer = { k.timer with
          active := k.timer.active.map marked, armed := k.timer.armed.map marked, finishing := k.timer.finishing.map marked } ∧
        (t.car b.carrier).sched = { k.sched with
          openSlots := slots, stack := k.sched.stack.filter (fun x => x ≠ id)
          incoming := if k.sched.incoming = some id then none else k.sched.incoming } ∧
        (b.state ≠ .suspended → k.sched.incoming ≠ some id → slots = k.sched.openSlots) ∧
        (b.state = .suspended ∨ k.sched.incoming = some id →
          ((∃ r ∈ k.timer.runs, r.names id = true) →
            (∀ r ∈ k.timer.runs, r.names id = true → ∃ x ∈ k.sched.openSlots, x.slot = r.slot) →
            given fun x => k.timer.runs.any fun r => r.names id && r.slot = x) ∧
          ((∀ r ∈ k.timer.runs, r.names id = false) →
            (k.sched.closed = none → given (inSpan s.tracker)) ∧
            ∀ q, k.sched.closed = some q → given (if tickReached s.tracker.tick (fxTick (slotStart q.slot)) = true ∧
                tickReached s.tracker.tick q.spanEnd = false
              then fun x => x.index = 0 && x.cycle = q.slot.cycle + 1 else inSpan s.tracker))))

/-! ### The launch arithmetic and the output words (R28, R29, R36, R37) -/

/-- Lfx is the launch offset in sub-ticks to the nearest integer, no half arising, within its bounds and exact at the ends; the
launch instant of a run is SlotStart + Lfx (R28). Tfx is Sum8 × 8192 / R to the nearest integer, no half arising, positive, and
exact for Sum8 = 80,000,000; over 480 symbols its rounding error is less than one tick (R29). SlotStart is Pred + p × Sum8 × 1024,
and a slot ends at the next slot's start, after position 7 at Pred of the next epoch, as a tick rounded down (R24). The payload
end of a run is its launch instant plus 120, 240 or 480 × Tfx, as a tick rounded down (R31). -/
def Obligations.LaunchArithmetic : Prop :=
  (∀ l : Int, -2500000 ≤ l → l ≤ 2500000 →
    -50 < 100 * offsetFx l - l * 65536 ∧ 100 * offsetFx l - l * 65536 < 50 ∧
    -1638400000 ≤ offsetFx l ∧ offsetFx l ≤ 1638400000) ∧
  offsetFx 2500000 = 1638400000 ∧ offsetFx (-2500000) = -1638400000 ∧
  (∀ (sum8 : Nat) (r : RateClass), 79992000 ≤ sum8 → sum8 ≤ 80008000 →
    2 * symbolStep sum8 r.perSecond * r.perSecond < 2 * (sum8 * 8192) + r.perSecond ∧
    2 * (sum8 * 8192) < 2 * symbolStep sum8 r.perSecond * r.perSecond + r.perSecond ∧
    0 < symbolStep sum8 r.perSecond ∧
    480 * symbolStep sum8 r.perSecond * r.perSecond < 480 * (sum8 * 8192) + 65536 * r.perSecond ∧
    480 * (sum8 * 8192) < 480 * symbolStep sum8 r.perSecond * r.perSecond + 65536 * r.perSecond) ∧
  (symbolStep 80000000 1000 = 655360000 ∧ symbolStep 80000000 2000 = 327680000 ∧ symbolStep 80000000 4000 = 163840000) ∧
  (∀ (c : Carrier) (sl : SlotRef) (g : Fin 16) (rate : RateClass) (content : RunContent) (s : State),
    (formRun c sl g rate content s).launch =
      slotStart sl + BitVec.ofInt 72 (offsetFx (max (-2500000) (min 2500000
        (((s.align.active.records.get c).rows.get g).offset - ((s.align.delays.get c).value : Int))))) ∧
    (formRun c sl g rate content s).tfx = symbolStep sl.grid.sum8 rate.perSecond ∧
    (formRun c sl g rate content s).symbols = (match rate with
      | .a => 120
      | .b => 240
      | .c => 480)) ∧
  (∀ x : Fx, (fxTick x).toNat = x.toNat / 65536) ∧
  (∀ sl : SlotRef, slotStart sl = sl.grid.pred + BitVec.ofNat 72 (sl.pos.val * (sl.grid.sum8 * 1024))) ∧
  (∀ (t : Tracker) (sl : SlotRef),
    (sl.pos.val < 7 → slotEndTick t sl =
      some (fxTick (sl.grid.pred + BitVec.ofNat 72 ((sl.pos.val + 1) * (sl.grid.sum8 * 1024))))) ∧
    (sl.pos = 7 → t.current = some sl.grid → slotEndTick t sl = t.next.map fun g => fxTick g.pred) ∧
    (sl.pos = 7 → t.current ≠ some sl.grid → slotEndTick t sl = t.current.map fun g => fxTick g.pred)) ∧
  ∀ r : Run, r.payloadEnd = fxTick (r.launch + BitVec.ofNat 72 (r.symbols * r.tfx))

/-- The word of level v is v × G / 8 to the nearest integer, halves away from zero, plus C, clamped to −32768..32767; a centre
word is exactly C, G = 0 makes every level centre, and a run's G and C are those of the carrier's record in the active bank
(R36). -/
def Obligations.OutputWord : Prop :=
  (∀ (w : WordSet) (v : Int), -3 ≤ v → v ≤ 3 → ∃ r : Int,
    wordOf w v = max (-32768) (min 32767 (r + w.centre)) ∧
    2 * (8 * r - v * w.gain.toNat) ≤ 8 ∧ -8 ≤ 2 * (8 * r - v * w.gain.toNat) ∧
    (2 * (8 * r - v * w.gain.toNat) = 8 → 0 < v) ∧ (2 * (8 * r - v * w.gain.toNat) = -8 → v < 0)) ∧
  (∀ w : WordSet, -16384 ≤ w.centre → w.centre ≤ 16383 → wordOf w 0 = w.centre ∧
    (w.gain = 0 → ∀ v : Int, wordOf w v = w.centre)) ∧
  ∀ (c : Carrier) (sl : SlotRef) (g : Fin 16) (rate : RateClass) (content : RunContent) (s : State),
    (formRun c sl g rate content s).words =
      { gain := (s.align.active.records.get c).gain, centre := (s.align.active.records.get c).centre }

/-! ### Slot decisions (R86 to R99) -/

/-- A decision under a gate, the claim maps being up to date: with the probe running on the carrier the slot is QUIET with
MEASURING, else in STANDBY or AWAKENING QUIET with WAKING, each with the claimant's id or none; the claimant ends and its
claim is consumed; the stack, the marker sequence, the key and, without a claimant, the runs stand (R61, R88, R89, R134,
R151). -/
def Obligations.DecisionGated : Prop :=
  ∀ (c : Carrier) (s : State) (sl : SlotRef), dueSlot c s = some sl → currentCycle c s = some sl.cycle →
    (s.car c).maps.label = some sl.cycle → (∀ o ∈ (s.car c).sched.openSlots, o.slot ≠ sl) → Scheduled s →
    probeOn c s = true ∨ (s.car c).power ≠ .active → ∃ t, exec (.slotDecision c) s = .next t ∧
    (t.car c).sched.openSlots = (s.car c).sched.openSlots ++
      [{ slot := sl, program := .quiet
         held := some { code := if probeOn c s = true then .measuring else .waking
                        id := (s.car c).maps.current.get sl.index } }] ∧
    (t.car c).maps.current.get sl.index = none ∧ (t.car c).sched.stack = (s.car c).sched.stack ∧
    (t.car c).sched.onAir = (s.car c).sched.onAir ∧ (t.car c).marker = (s.car c).marker ∧
    (t.car c).key = (s.car c).key ∧ (t.car c).word = (s.car c).word ∧ (t.car c).power = (s.car c).power ∧
    (∀ id, (s.car c).maps.current.get sl.index = some id → findBatch id t = none ∧
      (t.car c).counters = { (s.car c).counters with dropped := satInc (s.car c).counters.dropped }) ∧
    ((s.car c).maps.current.get sl.index = none →
      t.batches = s.batches ∧ (t.car c).timer = (s.car c).timer ∧ (t.car c).counters = (s.car c).counters) ∧
    t.car c = { s.car c with maps := (t.car c).maps, sched := (t.car c).sched, timer := (t.car c).timer
                             counters := (t.car c).counters } ∧
    t.tracker = s.tracker ∧ t.align = s.align ∧ t.probe = s.probe ∧ t.link = s.link ∧ t.mgmt = s.mgmt ∧
    ∀ d, d ≠ c → t.car d = s.car d

/-- START of a COMPLETE claimant on an ACTIVE carrier with nothing on air: the batch is ON_AIR with its next block past the
slot's blocks; its run is active with the accumulator loaded; a RELEASED key is PENDING, or KEYED where its key-up instant is
reached (on the 2^56 circle: log 4); and the margin is measured against warn (R30, R32, R91, R95, R98, R99, R112, R118). Of the alarms
a low margin latches MARGIN_LOW, the 64th good START in a row clears it where auto-clear is on, and an offset outside
±2,500,000 ns latches OFFSET_CLAMPED; nothing else of the Management Unit moves (R27, R99).
A claimant that is not COMPLETE is dropped MALFORMED or INCOMPLETE, a COMPLETE one of a disabled row NOT_IN_GROUP; with
nothing on air and an empty stack the slot is then QUIET, with that code and the batch's id (R60, R91, R100). -/
def Obligations.DecisionStarts : Prop :=
  (∀ (c : Carrier) (s : State) (sl : SlotRef) (b : Batch) (l : LastMark) (done : Tick), dueSlot c s = some sl →
    currentCycle c s = some sl.cycle → (s.car c).maps.label = some sl.cycle →
    (∀ o ∈ (s.car c).sched.openSlots, o.slot ≠ sl) → Scheduled s → probeOn c s = false → (s.car c).power = .active →
    (s.par c).markerSlot ≠ some sl.index → (s.car c).maps.current.get sl.index = some b.id → findBatch b.id s = some b →
    b.state = .complete → b.last = some l → b.completion = some done →
    ((s.align.active.records.get c).rows.get b.group).enabled = true →
    (s.car c).sched.onAir = none → (s.car c).sched.incoming = none → NoRuns (s.car c).timer → (s.car c).key = .released →
    ∃ t, exec (.slotDecision c) s = .next t ∧
    let n := min b.rate.blocks (l.index + 1 - b.nextBlock)
    let r := formRun c sl b.group b.rate (.batch b.id b.nextBlock n b.modulation l) s
    let keyUp := fxTick r.launch - BitVec.ofNat 56 ((s.par c).lead * 10000)
    let margin := (s.tracker.tick - done).toNat
    findBatch b.id t = some { b with state := .onAir, nextBlock := b.nextBlock + n } ∧
    (t.car c).sched.onAir = some b.id ∧ (t.car c).sched.incoming = none ∧ (t.car c).sched.stack = (s.car c).sched.stack ∧
    (t.car c).sched.openSlots =
      (s.car c).sched.openSlots ++ [{ slot := sl, program := .start b.id, held := none }] ∧
    (t.car c).timer = { active := some r, armed := none, finishing := none, acc := r.launch, step := r.tfx } ∧
    (t.car c).maps.current.get sl.index = none ∧
    (tickReached s.tracker.tick keyUp = false → (t.car c).key = .pending keyUp ∧ (t.car c).word = (s.car c).word) ∧
    (tickReached s.tracker.tick keyUp = true → (t.car c).key = .keyed ∧ (t.car c).word = centreWord r.words ∧
      (t.car c).monitor.opening = some sl ∧ (t.car c).monitor.presence = none) ∧
    (t.car c).sched.lastMargin = some margin ∧
    (margin < (s.par c).warn * 10000 → (t.car c).sched.goodStarts = 0 ∧ latched (.marginLow c) t = true ∧
      (t.car c).counters = { (s.car c).counters with lowMargins := satInc (s.car c).counters.lowMargins }) ∧
    ((s.par c).warn * 10000 ≤ margin → (t.car c).counters = (s.car c).counters ∧
      (t.car c).sched.goodStarts =
        if (s.car c).sched.goodStarts + 1 = 64 then 0 else (s.car c).sched.goodStarts + 1) ∧
    t.car c = { s.car c with maps := (t.car c).maps, sched := (t.car c).sched, timer := (t.car c).timer
                             key := (t.car c).key, word := (t.car c).word, monitor := (t.car c).monitor
                             counters := (t.car c).counters } ∧
    t.store = s.store ∧ t.tracker = s.tracker ∧ t.align = s.align ∧ t.probe = s.probe ∧ t.link = s.link ∧
    (let offset := ((s.align.active.records.get c).rows.get b.group).offset - ((s.align.delays.get c).value : Int)
     t.mgmt = { s.mgmt with alarms :=
       (if margin < (s.par c).warn * 10000 then s.mgmt.alarms ||| (Alarm.marginLow c).mask
        else if (s.car c).sched.goodStarts + 1 = 64 ∧ s.mgmt.params.autoClear = true then
          s.mgmt.alarms &&& ~~~(Alarm.marginLow c).mask
        else s.mgmt.alarms) |||
       (if -2500000 ≤ offset ∧ offset ≤ 2500000 then 0 else (Alarm.offsetClamped c).mask) }) ∧
    (∀ id, id ≠ b.id → findBatch id t = findBatch id s) ∧ ∀ d, d ≠ c → t.car d = s.car d) ∧
  ∀ (c : Carrier) (s : State) (sl : SlotRef) (b : Batch), Decides c sl s → Scheduled s →
    (s.par c).markerSlot ≠ some sl.index ∨ (s.car c).marker = [] → (s.car c).maps.current.get sl.index = some b.id →
    findBatch b.id s = some b → b.state ≠ .complete ∨ ¬ RowOn c b s → (s.car c).sched.onAir = none →
    (s.car c).sched.stack = [] → ∃ t, exec (.slotDecision c) s = .next t ∧
    let code : OutcomeCode :=
      if b.state = .complete then .notInGroup else if b.malformed = true then .malformed else .incomplete
    findBatch b.id t = none ∧ (∀ id, id ≠ b.id → findBatch id t = findBatch id s) ∧
    (t.car c).maps.current.get sl.index = none ∧
    (t.car c).sched.openSlots =
      (s.car c).sched.openSlots ++ [{ slot := sl, program := .quiet, held := some { code := code, id := some b.id } }] ∧
    (t.car c).counters = { (s.car c).counters with dropped := satInc (s.car c).counters.dropped } ∧
    (t.car c).key = (s.car c).key ∧ (t.car c).word = (s.car c).word ∧ t.mgmt = s.mgmt ∧ ∀ d, d ≠ c → t.car d = s.car d

/-- A COMPLETE claimant meets an on-air batch with blocks remaining and CANCEL_PENDING clear: a strictly higher priority pushes
the on-air batch, SUSPENDED, onto the stack and starts the claimant; otherwise the claimant ends OVERLAP and the on-air batch,
its row enabled, is continued (R91, R92, R94). A push on a full stack ends its oldest entry DISPLACED (R94). Over a finished
on-air batch the claimant starts as the incoming batch, COMPLETE until the hand-over. One with CANCEL_PENDING set is stopped
CANCELLED whatever the priorities: while a run of it is held its end waits (the field `stop`: log 29) and the claimant is
incoming; with none it ends at once, and the claimant is ON_AIR (R91, R92, R96). -/
def Obligations.DecisionPreempts : Prop :=
  (∀ (c : Carrier) (s : State) (sl : SlotRef) (a b : Batch) (l : LastMark), dueSlot c s = some sl →
    currentCycle c s = some sl.cycle → (s.car c).maps.label = some sl.cycle →
    (∀ o ∈ (s.car c).sched.openSlots, o.slot ≠ sl) → Scheduled s → probeOn c s = false → (s.car c).power = .active →
    (s.par c).markerSlot ≠ some sl.index → (s.car c).maps.current.get sl.index = some b.id → findBatch b.id s = some b →
    b.state = .complete → ((s.align.active.records.get c).rows.get b.group).enabled = true →
    (s.car c).sched.onAir = some a.id → findBatch a.id s = some a → a.last = some l → a.nextBlock ≤ l.index →
    a.cancelPending = false → (s.car c).sched.incoming = none → (s.car c).sched.stack.length < 4 → ∃ t, exec (.slotDecision c) s = .next t ∧
    (a.priority < b.priority →
      (t.car c).sched.onAir = some b.id ∧ (t.car c).sched.stack = a.id :: (s.car c).sched.stack ∧
      findBatch a.id t = some { a with state := .suspended } ∧
      (findBatch b.id t).map Batch.state = some .onAir ∧
      (t.car c).sched.openSlots =
        (s.car c).sched.openSlots ++ [{ slot := sl, program := .start b.id, held := none }]) ∧
    (b.priority ≤ a.priority → ((s.align.active.records.get c).rows.get a.group).enabled = true →
      (t.car c).sched.onAir = some a.id ∧ (t.car c).sched.stack = (s.car c).sched.stack ∧ findBatch b.id t = none ∧
      findBatch a.id t = some { a with nextBlock := a.nextBlock + min a.rate.blocks (l.index + 1 - a.nextBlock) } ∧
      (t.car c).sched.openSlots = (s.car c).sched.openSlots ++
        [{ slot := sl, program := .cont a.id, held := some { code := .overlap, id := some b.id } }]) ∧
    ∀ d, d ≠ c → t.car d = s.car d) ∧
  ∀ (c : Carrier) (s : State) (sl : SlotRef) (a b : Batch), Decides c sl s → Scheduled s →
    (s.par c).markerSlot ≠ some sl.index ∨ (s.car c).marker = [] → (s.car c).maps.current.get sl.index = some b.id →
    findBatch b.id s = some b → b.state = .complete → RowOn c b s → (s.car c).sched.onAir = some a.id →
    findBatch a.id s = some a → (s.car c).sched.incoming = none → ∃ t, exec (.slotDecision c) s = .next t ∧
    (∀ rest x, Remains a → a.cancelPending = false → a.priority < b.priority →
      (s.car c).sched.stack = rest ++ [x] → rest.length = 3 →
      findBatch x t = none ∧ findBatch a.id t = some { a with state := .suspended } ∧
      (findBatch b.id t).map Batch.state = some .onAir ∧ (t.car c).sched.onAir = some b.id ∧
      (t.car c).sched.stack = a.id :: rest ∧
      (t.car c).counters.dropped = satInc (s.car c).counters.dropped ∧
      (t.car c).sched.openSlots = (s.car c).sched.openSlots ++
        [{ slot := sl, program := .start b.id, held := some { code := .displaced, id := some x } }]) ∧
    (¬ Remains a → ∀ l, b.last = some l →
      findBatch b.id t = some { b with nextBlock := b.nextBlock + min b.rate.blocks (l.index + 1 - b.nextBlock) } ∧
      findBatch a.id t = some a ∧ (t.car c).sched.onAir = some a.id ∧ (t.car c).sched.incoming = some b.id ∧
      (t.car c).sched.stop = (s.car c).sched.stop ∧ (t.car c).sched.stack = (s.car c).sched.stack ∧
      (t.car c).sched.openSlots =
        (s.car c).sched.openSlots ++ [{ slot := sl, program := .start b.id, held := none }]) ∧
    (Remains a → a.cancelPending = true → ∀ l, b.last = some l →
      let n := b.nextBlock + min b.rate.blocks (l.index + 1 - b.nextBlock)
      (t.car c).sched.stack = (s.car c).sched.stack ∧ (t.car c).sched.openSlots = (s.car c).sched.openSlots ++
        [{ slot := sl, program := .start b.id, held := some { code := .cancelled, id := some a.id } }] ∧
      (Held c a.id s →
        findBatch a.id t = some a ∧ (t.car c).sched.onAir = some a.id ∧ (t.car c).sched.stop = some .cancelled ∧
        (t.car c).sched.incoming = some b.id ∧ findBatch b.id t = some { b with nextBlock := n }) ∧
      (¬ Held c a.id s →
        findBatch a.id t = none ∧ (t.car c).sched.onAir = some b.id ∧ (t.car c).sched.stop = none ∧
        (t.car c).sched.incoming = none ∧ findBatch b.id t = some { b with state := .onAir, nextBlock := n } ∧
        (t.car c).counters.dropped = satInc (s.car c).counters.dropped)) ∧
    ∀ d, d ≠ c → t.car d = s.car d

/-- The marker step on an ACTIVE carrier with a BUSY unit: an on-air batch with blocks remaining and CANCEL_PENDING clear is
pushed whatever its priority and its row (the stack not full); one with CANCEL_PENDING set is stopped CANCELLED and not pushed,
its end waiting while a run of it is held (the field `stop`: log 29) and at once where none is; a finished one is left. The
oldest bit leaves the sequence; a 1 is MARKER_ON with a class A run of 120 positions on the marker group's row, a 0 is
MARKER_GAP, which forms no run and leaves the key (R90, R92, R94, R134, R135, R136). -/
def Obligations.DecisionMarks : Prop :=
  ∀ (c : Carrier) (s : State) (sl : SlotRef) (bit : Bool) (rest : List Bool), dueSlot c s = some sl →
    currentCycle c s = some sl.cycle → (s.car c).maps.label = some sl.cycle →
    (∀ o ∈ (s.car c).sched.openSlots, o.slot ≠ sl) → Scheduled s → probeOn c s = false → (s.car c).power = .active →
    (s.par c).markerSlot = some sl.index → (s.car c).marker = bit :: rest → (s.car c).maps.current.get sl.index = none →
    (s.car c).sched.stack.length < 4 → ∃ t, exec (.slotDecision c) s = .next t ∧ (t.car c).marker = rest ∧
    (∀ a l, (s.car c).sched.onAir = some a.id → findBatch a.id s = some a → a.last = some l → a.nextBlock ≤ l.index →
      a.cancelPending = false →
      (t.car c).sched.onAir = none ∧ (t.car c).sched.stack = a.id :: (s.car c).sched.stack ∧
      findBatch a.id t = some { a with state := .suspended }) ∧
    (∀ a, (s.car c).sched.onAir = some a.id → findBatch a.id s = some a → Remains a → a.cancelPending = true →
      (t.car c).sched.stack = (s.car c).sched.stack ∧
      (t.car c).sched.openSlots = (s.car c).sched.openSlots ++
        [{ slot := sl, program := if bit then .markerOn else .markerGap
           held := some { code := .cancelled, id := some a.id } }] ∧
      (Held c a.id s →
        t.batches = s.batches ∧ (t.car c).sched.onAir = some a.id ∧ (t.car c).sched.stop = some .cancelled) ∧
      (¬ Held c a.id s →
        findBatch a.id t = none ∧ (t.car c).sched.onAir = none ∧
        (t.car c).counters.dropped = satInc (s.car c).counters.dropped)) ∧
    (∀ a, (s.car c).sched.onAir = some a.id → findBatch a.id s = some a → ¬ Remains a →
      t.batches = s.batches ∧ (t.car c).sched.onAir = some a.id ∧ (t.car c).sched.stack = (s.car c).sched.stack) ∧
    ((s.car c).sched.onAir = none →
      t.batches = s.batches ∧ (t.car c).sched.onAir = none ∧ (t.car c).sched.stack = (s.car c).sched.stack) ∧
    (bit = true →
      (∃ o, (t.car c).sched.openSlots = (s.car c).sched.openSlots ++ [o] ∧ o.slot = sl ∧ o.program = .markerOn) ∧
      let r := formRun c sl (s.par c).markerGroup .a .marker s
      r.symbols = 120 ∧
      ((s.car c).timer.active = none → (t.car c).timer =
        { (s.car c).timer with active := some r, acc := r.launch, step := r.tfx }) ∧
      (∀ x, (s.car c).timer.active = some x → (t.car c).timer = { (s.car c).timer with armed := some r }) ∧
      ((s.car c).key = .keyed ∨ (∃ e, (s.car c).key = .tail e) → (t.car c).key = .keyed)) ∧
    (bit = false →
      ((s.car c).sched.onAir = none → (t.car c).sched.openSlots = (s.car c).sched.openSlots ++
        [{ slot := sl, program := .markerGap, held := some { code := .markerGap, id := none } }]) ∧
      (t.car c).timer = (s.car c).timer ∧ (t.car c).key = (s.car c).key ∧ (t.car c).word = (s.car c).word) ∧
    ∀ d, d ≠ c → t.car d = s.car d

/-- With no claimant and no marker step: an on-air batch with blocks remaining, its row enabled and CANCEL_PENDING clear is
continued; with CANCEL_PENDING set it is stopped CANCELLED, of a disabled row NOT_IN_GROUP: its end waits while a run of it is
held (the field `stop`: log 29), and it ends at once where none is; with nothing on air the top of the stack, its row enabled,
is resumed; with nothing on air and an empty stack the slot is QUIET (R92, R93, R95). An entry of a disabled row at the top of
the stack ends NOT_IN_GROUP, and the one below is resumed; over an on-air batch that is finished, or whose stop waits, the top
of the stack is resumed as the incoming batch, and over one that ends at once it is ON_AIR (R92, R93, R96). -/
def Obligations.DecisionContinues : Prop :=
  (∀ (c : Carrier) (s : State) (sl : SlotRef), dueSlot c s = some sl →
    currentCycle c s = some sl.cycle → (s.car c).maps.label = some sl.cycle →
    (∀ o ∈ (s.car c).sched.openSlots, o.slot ≠ sl) → Scheduled s → probeOn c s = false → (s.car c).power = .active →
    (s.par c).markerSlot ≠ some sl.index ∨ (s.car c).marker = [] → (s.car c).maps.current.get sl.index = none →
    ∃ t, exec (.slotDecision c) s = .next t ∧
    (∀ a l, (s.car c).sched.onAir = some a.id → findBatch a.id s = some a → a.last = some l → a.nextBlock ≤ l.index →
      a.cancelPending = false →
      ((s.align.active.records.get c).rows.get a.group).enabled = true →
      let n := min a.rate.blocks (l.index + 1 - a.nextBlock)
      let r := formRun c sl a.group a.rate (.batch a.id a.nextBlock n a.modulation l) s
      findBatch a.id t = some { a with nextBlock := a.nextBlock + n } ∧ (t.car c).sched.onAir = some a.id ∧
      (t.car c).sched.openSlots = (s.car c).sched.openSlots ++ [{ slot := sl, program := .cont a.id, held := none }] ∧
      ((s.car c).timer.active = none → (t.car c).timer =
        { (s.car c).timer with active := some r, acc := r.launch, step := r.tfx }) ∧
      (∀ x, (s.car c).timer.active = some x → (t.car c).timer = { (s.car c).timer with armed := some r })) ∧
    (∀ a l r, (s.car c).sched.onAir = some a.id → findBatch a.id s = some a → a.last = some l → a.nextBlock ≤ l.index →
      a.cancelPending = true → (s.car c).timer.active = some r → r.names a.id = true →
      (s.car c).sched.stack = [] →
      t.batches = s.batches ∧ (t.car c).sched.onAir = some a.id ∧ (t.car c).sched.stop = some .cancelled ∧
      (t.car c).timer = (s.car c).timer ∧ (t.car c).sched.openSlots = (s.car c).sched.openSlots ++
        [{ slot := sl, program := .quiet, held := some { code := .cancelled, id := some a.id } }]) ∧
    (∀ x rest, (s.car c).sched.onAir = none → (s.car c).sched.incoming = none → (s.car c).sched.stack = x.id :: rest →
      findBatch x.id s = some x → ((s.align.active.records.get c).rows.get x.group).enabled = true →
      (t.car c).sched.onAir = some x.id ∧ (t.car c).sched.stack = rest ∧
      (findBatch x.id t).map Batch.state = some .onAir ∧
      (t.car c).sched.openSlots = (s.car c).sched.openSlots ++ [{ slot := sl, program := .resume x.id, held := none }]) ∧
    ((s.car c).sched.onAir = none → (s.car c).sched.stack = [] →
      t.batches = s.batches ∧ (t.car c).timer = (s.car c).timer ∧ (t.car c).key = (s.car c).key ∧
      (t.car c).word = (s.car c).word ∧ (t.car c).sched.openSlots = (s.car c).sched.openSlots ++
        [{ slot := sl, program := .quiet, held := some { code := .quiet, id := none } }]) ∧
    ∀ d, d ≠ c → t.car d = s.car d) ∧
  ∀ (c : Carrier) (s : State) (sl : SlotRef), Decides c sl s → Scheduled s →
    (s.par c).markerSlot ≠ some sl.index ∨ (s.car c).marker = [] → (s.car c).maps.current.get sl.index = none →
    (s.car c).sched.incoming = none → ∃ t, exec (.slotDecision c) s = .next t ∧
    (∀ a why code, (s.car c).sched.onAir = some a.id → findBatch a.id s = some a → Stops c a s why code →
      (s.car c).sched.stack = [] →
      (t.car c).sched.openSlots = (s.car c).sched.openSlots ++
        [{ slot := sl, program := .quiet, held := some { code := code, id := some a.id } }] ∧
      (Held c a.id s →
        t.batches = s.batches ∧ (t.car c).sched.onAir = some a.id ∧ (t.car c).sched.stop = some why ∧
        (t.car c).timer = (s.car c).timer ∧ (t.car c).counters = (s.car c).counters) ∧
      (¬ Held c a.id s →
        findBatch a.id t = none ∧ (t.car c).sched.onAir = none ∧
        (t.car c).counters = { (s.car c).counters with dropped := satInc (s.car c).counters.dropped })) ∧
    (∀ x y rest, (s.car c).sched.onAir = none → (s.car c).sched.stack = x.id :: y.id :: rest → findBatch x.id s = some x →
      findBatch y.id s = some y → ¬ RowOn c x s → RowOn c y s →
      findBatch x.id t = none ∧ (findBatch y.id t).map Batch.state = some .onAir ∧ (t.car c).sched.onAir = some y.id ∧
      (t.car c).sched.stack = rest ∧ (t.car c).counters.dropped = satInc (s.car c).counters.dropped ∧
      (t.car c).sched.openSlots = (s.car c).sched.openSlots ++
        [{ slot := sl, program := .resume y.id, held := some { code := .notInGroup, id := some x.id } }]) ∧
    (∀ a x rest, (s.car c).sched.onAir = some a.id → findBatch a.id s = some a → ¬ Remains a →
      (s.car c).sched.stack = x.id :: rest → findBatch x.id s = some x → RowOn c x s →
      findBatch a.id t = some a ∧ (findBatch x.id t).map Batch.state = some .suspended ∧
      (t.car c).sched.onAir = some a.id ∧ (t.car c).sched.incoming = some x.id ∧
      (t.car c).sched.stack = (s.car c).sched.stack ∧
      (t.car c).sched.openSlots =
        (s.car c).sched.openSlots ++ [{ slot := sl, program := .resume x.id, held := none }]) ∧
    (∀ a x rest why code, (s.car c).sched.onAir = some a.id → findBatch a.id s = some a → Stops c a s why code →
      (s.car c).sched.stack = x.id :: rest → findBatch x.id s = some x → RowOn c x s →
      (t.car c).sched.openSlots = (s.car c).sched.openSlots ++
        [{ slot := sl, program := .resume x.id, held := some { code := code, id := some a.id } }] ∧
      (Held c a.id s →
        findBatch a.id t = some a ∧ (findBatch x.id t).map Batch.state = some .suspended ∧
        (t.car c).sched.onAir = some a.id ∧ (t.car c).sched.stop = some why ∧ (t.car c).sched.incoming = some x.id ∧
        (t.car c).sched.stack = (s.car c).sched.stack) ∧
      (¬ Held c a.id s →
        findBatch a.id t = none ∧ (findBatch x.id t).map Batch.state = some .onAir ∧
        (t.car c).sched.onAir = some x.id ∧ (t.car c).sched.stop = none ∧ (t.car c).sched.incoming = none ∧
        (t.car c).sched.stack = rest ∧ (t.car c).counters.dropped = satInc (s.car c).counters.dropped)) ∧
    ∀ d, d ≠ c → t.car d = s.car d

/-- The decision instant of a slot is its start's tick less the lead less 25,000 ticks: an enabled carrier, with timing
available, has a slot due at the decision instant of a position 1 to 7 of the current grid, or of position 0 of the next, that is
neither decided nor passed over, and it is that slot where no other starts at its tick; a carrier that is not enabled, or a
machine whose timing is not available, has no decisions, and a slot is decided only at its instant and at most once (R16, R22,
R86): its decision settles it, and every command but POWER_ON and RESET_PIN leaves a settled slot settled, for instants within
2^70 sub-ticks of a common point (the settled mark that holds a slot to once: log 17; comparisons on the circle: log 4). -/
def Obligations.DecisionInstant : Prop :=
  ∀ (c : Carrier) (s : State),
    (∀ sl, dueSlot c s = some sl →
      (s.par c).enabled = true ∧ timingAvailable s = true ∧
      s.tracker.tick = fxTick (slotStart sl) - BitVec.ofNat 56 ((s.par c).lead * 10000 + 25000) ∧
      (∀ u, exec (.slotDecision c) s = .next u → unsettled c sl u = false ∧ dueSlot c u ≠ some sl) ∧
      ∃ e, s.tracker.epoch = some e ∧
        ((sl.pos ≠ 0 ∧ s.tracker.current = some sl.grid ∧ sl.cycle = BitVec.ofNat 30 (e.toNat / 4) ∧
            sl.index.val = 8 * (e.toNat % 4) + sl.pos.val) ∨
          (sl.pos = 0 ∧ s.tracker.next = some sl.grid ∧ sl.cycle = BitVec.ofNat 30 ((e + 1).toNat / 4) ∧
            sl.index.val = 8 * ((e + 1).toNat % 4)))) ∧
    (∀ e sl, (s.par c).enabled = true → timingAvailable s = true → s.tracker.epoch = some e →
      (∃ g p, s.tracker.current = some g ∧ p ≠ 0 ∧ sl = slotAt e p g) ∨ (∃ g, s.tracker.next = some g ∧ sl = slotAt (e + 1) 0 g) →
      s.tracker.tick = fxTick (slotStart sl) - BitVec.ofNat 56 ((s.par c).lead * 10000 + 25000) → unsettled c sl s = true →
      (∃ x, dueSlot c s = some x) ∧
      ((∀ x ∈ candidateSlots s, fxTick (slotStart x) = fxTick (slotStart sl) → x = sl) → dueSlot c s = some sl)) ∧
    (dueSlot c s = none → exec (.slotDecision c) s = .next s) ∧
    ((s.par c).enabled = false ∨ timingAvailable s = false → exec (.slotDecision c) s = .next s) ∧
    ∀ (i : Instr) (t : State) (z : Fx) (sl : SlotRef), (∀ straps, i ≠ .powerOn straps ∧ i ≠ .resetPin straps) →
      exec i s = .next t → (∀ x ∈ candidateSlots s, (slotStart x - z).toNat < 2 ^ 70) →
      (∀ y, (s.car c).sched.settled = some y → (y - z).toNat < 2 ^ 70) → (slotStart sl - z).toNat < 2 ^ 70 →
      unsettled c sl s = false → unsettled c sl t = false ∧ dueSlot c t ≠ some sl

/-- SLOT_END: the open slot that ends at this tick leaves the open slots; its held outcome is written at its index where the
array's label is its cycle or absent, which takes that cycle; an entry once written stands; a slot of another cycle is not
written (R24, R102). The current cycle is that of the next epoch once the decision instant of its slot 0 is reached, and it stays
that whatever a lead becomes after that slot's decision (R62, R86; a slot 0 passed over: log 50); without timing there is none.
CURRENT_CYCLE_ADVANCE: where no slot-0 decision does it, the next map becomes the current one and an empty
next map opens (R62). A decision at which the cycle advances first rolls the maps, and reads the one made current (R62, R87).
Each claim that still stands in the map discarded ends its batch NO_TIMING; where it is the only one, no run is held and no
slot 31 was recorded early, that code goes to the open slots in whose span the tick lies (R62, R101; by R101: log 14; such a
slot 31: log 35). -/
def Obligations.SlotsAndMapsTurnOver : Prop :=
  (∀ (c : Carrier) (s : State) (sl : SlotRef) (n : CycleNo), dueSlot c s = some sl → currentCycle c s = some n →
    (s.car c).maps.label = some (n - 1) → EmptyMap (s.car c).maps.current →
    exec (.slotDecision c) s = exec (.slotDecision c) (s.setCar c { s.car c with
      maps := { label := some n, current := (s.car c).maps.next, next := ClaimMap.empty } })) ∧
  (∀ (c : Carrier) (s : State) (n : CycleNo), currentCycle c s = some n → (∀ sl, dueSlot c s = some sl → sl.index ≠ 0) →
    (s.car c).maps.label = some (n - 1) → Scheduled s → ∃ t, exec (.currentCycleAdvance c) s = .next t ∧
    (t.car c).maps.label = some n ∧ (t.car c).maps.current = (s.car c).maps.next ∧ EmptyMap (t.car c).maps.next ∧
    (∀ id, findBatch id t = if ∃ i : Fin 32, (s.car c).maps.current.get i = some id then none else findBatch id s) ∧
    (∀ (i : Fin 32) (id : BatchId), (s.car c).maps.current.get i = some id →
      (∀ j : Fin 32, j ≠ i → (s.car c).maps.current.get j = none) →
      (t.car c).counters = { (s.car c).counters with dropped := satInc (s.car c).counters.dropped } ∧
      (NoRuns (s.car c).timer → (s.car c).sched.closed = none → (t.car c).sched.openSlots =
        coded (inSpan s.tracker) { code := .noTiming, id := some id } (s.car c).sched.openSlots)) ∧
    ∀ d, d ≠ c → t.car d = s.car d) ∧
  (∀ (c : Carrier) (s : State) (o : OpenSlot) (rest : List OpenSlot), (s.car c).sched.openSlots = o :: rest →
    slotEndTick s.tracker o.slot = some s.tracker.tick →
    (∀ x ∈ rest, slotEndTick s.tracker x.slot ≠ some s.tracker.tick) → ∃ a,
    exec (.slotEnd c) s = .next (s.setCar c { s.car c with
      sched := { (s.car c).sched with openSlots := rest, outcomes := a } }) ∧
    ((s.car c).sched.outcomes.label = none ∨ (s.car c).sched.outcomes.label = some o.slot.cycle →
      a.label = some o.slot.cycle ∧
      a.entries.get o.slot.index =
        (match (s.car c).sched.outcomes.entries.get o.slot.index with
         | some x => some x
         | none => o.held) ∧
      ∀ i, i ≠ o.slot.index → a.entries.get i = (s.car c).sched.outcomes.entries.get i) ∧
    (∀ n, (s.car c).sched.outcomes.label = some n → n ≠ o.slot.cycle → a = (s.car c).sched.outcomes)) ∧
  (∀ (c : Carrier) (s : State), (timingAvailable s = false → currentCycle c s = none) ∧
    ∀ e, timingAvailable s = true → s.tracker.epoch = some e →
      ((e + 1).toNat % 4 ≠ 0 ∨ s.tracker.next = none → currentCycle c s = some (BitVec.ofNat 30 (e.toNat / 4))) ∧
      ∀ g, (e + 1).toNat % 4 = 0 → s.tracker.next = some g →
        let reached := tickReached s.tracker.tick (fxTick g.pred - BitVec.ofNat 56 ((s.par c).lead * 10000 + 25000))
        (reached = true ∨ unsettled c (slotAt (e + 1) 0 g) s = false →
          currentCycle c s = some (BitVec.ofNat 30 ((e + 1).toNat / 4))) ∧
        (reached = false → unsettled c (slotAt (e + 1) 0 g) s = true →
          currentCycle c s = some (BitVec.ofNat 30 (e.toNat / 4)))) ∧
  (∀ (c : Carrier) (s : State) (sl : SlotRef), dueSlot c s = some sl → sl.index = 0 → ∃ t,
    exec (.slotDecision c) s = .next t ∧ ∀ u : State, u.tracker = t.tracker →
      (u.car c).sched.settled = (t.car c).sched.settled → currentCycle c u = some sl.cycle) ∧
  ∀ (c : Carrier) (s : State) (n : CycleNo), currentCycle c s = some n → (∀ sl, dueSlot c s = some sl → sl.index ≠ 0) →
    ((s.car c).maps.label = some n → exec (.currentCycleAdvance c) s = .next s) ∧
    ((s.car c).maps.label = some (n - 1) → EmptyMap (s.car c).maps.current →
      exec (.currentCycleAdvance c) s = .next (s.setCar c { s.car c with
        maps := { label := some n, current := (s.car c).maps.next, next := ClaimMap.empty } }))

/-! ### Symbols, payload ends and keys (R30 to R38, R82 to R84, R112 to R126) -/

/-- At the accumulator's tick a position of a marker run, or one of a batch run that is no block's 40th place and at a block's
first place finds its tag HELD for this batch and index: the word of its level is driven from the run's word set, a clamped
word counts, the accumulator advances by the step; after the last symbol the run is the finishing one, and the armed run
becomes active with its own launch instant. Symbol 0 follows the key-up: with a key still PENDING at this very tick the run
keys the carrier first (R113, R114; at a lead of 0: log 36). At symbol 0 of the opening run, absent RF latches NO_CARRIER (R30,
R31, R32, R35, R37, R74, R118, R119, R124, R135; the check kept for its tick: log 45). -/
def Obligations.SymbolEmitted : Prop :=
  ∀ (c : Carrier) (s : State) (r : Run), (s.car c).timer.active = some r → s.tracker.tick = fxTick (s.car c).timer.acc →
    (∀ id i j, r.blockPlace = some (id, i, j) → j ≠ 39 ∧ (j = 0 → ∃ b n, findBatch id s = some b ∧
      b.blocks.getD i none = some n ∧ (readBlock n s).tag = .held id i)) → ∃ t, exec (.symbolEmit c) s = .next t ∧
    let v := symbolLevel r s
    let k := if r.pos = 0 ∧ (s.car c).key = .pending s.tracker.tick then
        { s.car c with key := .keyed, word := centreWord r.words
                       monitor := { (s.car c).monitor with opening := some r.slot, presence := none } }
      else s.car c
    let opens := r.pos = 0 ∧ k.monitor.opening = some r.slot
    (r.content = .marker → v = if r.pos % 2 = 0 then 3 else -3) ∧
    (∀ id first count m last, r.content = .batch id first count m last →
      (r.ended = true ∨ count ≤ r.pos / 40 → v = 0) ∧
      (r.ended = false → r.pos / 40 < count → first + r.pos / 40 = last.index → last.count ≤ r.pos % 40 → v = 0) ∧
      (∀ b n, r.ended = false → r.pos / 40 < count →
        (first + r.pos / 40 ≠ last.index ∨ r.pos % 40 < last.count) → findBatch id s = some b →
        b.blocks.getD (first + r.pos / 40) none = some n →
        let code := codeAt (readBlock n s).codes (r.pos % 40)
        (m = .level4 → v = 2 * (code.toNat : Int) - 3) ∧ (m = .level2 → v = if 2 ≤ code.toNat then 3 else -3))) ∧
    (t.car c).word = wordOf r.words v ∧
    (t.car c).counters = { (s.car c).counters with
      clampedWords := (if wordClamped r.words v = true then satInc (s.car c).counters.clampedWords
        else (s.car c).counters.clampedWords) } ∧
    (r.pos + 1 < r.symbols → (t.car c).timer = { (s.car c).timer with
      active := some { r with pos := r.pos + 1 }, acc := fxAdd (s.car c).timer.acc (s.car c).timer.step }) ∧
    (r.symbols ≤ r.pos + 1 → (s.car c).timer.armed = none → (t.car c).timer = { (s.car c).timer with
      active := none, finishing := some { r with pos := r.pos + 1 }
      acc := fxAdd (s.car c).timer.acc (s.car c).timer.step }) ∧
    (∀ a, r.symbols ≤ r.pos + 1 → (s.car c).timer.armed = some a → (t.car c).timer =
      { active := some { a with pos := 0 }, armed := none, finishing := some { r with pos := r.pos + 1 }
        acc := a.launch, step := a.tfx }) ∧
    (opens → (t.car c).monitor = { k.monitor with
        opening := none, checked := some { tick := s.tracker.tick, wasClear := !latched (.noCarrier c) s } } ∧
      t.mgmt = { s.mgmt with
        alarms := s.mgmt.alarms ||| (if (s.car c).monitor.rfSense = true then 0 else (Alarm.noCarrier c).mask) }) ∧
    (¬ opens → (t.car c).monitor = k.monitor ∧ t.mgmt = s.mgmt) ∧
    t.car c = { k with word := (t.car c).word, counters := (t.car c).counters, timer := (t.car c).timer
                       monitor := (t.car c).monitor } ∧
    t = (s.setCar c (t.car c)).setMgmt t.mgmt

/-- The store guard. At a block's first place a tag that is not HELD for this batch and index is a guard fault: the carrier's
key is released, its runs are discarded, the batch leaves the table, STORE_GUARD latches with its test marker clear (such a
tag cannot arise in the model: log 31). The run's slot is given GUARD_FAULT with the batch's id, the slot of another discarded
run CUT with that run's (R100, R106); a batch that stays in the table has its next block set back to the first block its
discarded run was to emit (R97); where the carrier has no on-air batch then, the incoming one is handed over, a batch that
was on the stack is off it (R96, R106), and a stop that waited for a payload end is withdrawn (the model's choice: log 29). At
a block's 40th place the tag becomes SPENT; with the guard test armed the write is withheld, the test is disarmed and
STORE_GUARD latches; in both cases the run goes on: its position and the accumulator advance, and after its last symbol it is the finishing run and the armed run becomes active (R30 to R32, R82, R83, R84, R117). -/
def Obligations.StoreGuardChecks : Prop :=
  ∀ (c : Carrier) (s : State) (r : Run) (id : BatchId) (i j : Nat) (b : Batch), BlocksAccounted s → Scheduled s →
    (s.car c).timer.active = some r → s.tracker.tick = fxTick (s.car c).timer.acc → r.blockPlace = some (id, i, j) →
    findBatch id s = some b → b.carrier = c → (s.car c).key ≠ .probe →
    (j = 0 → (∀ n, b.blocks.getD i none = some n → (readBlock n s).tag ≠ .held id i) → ∃ t,
      exec (.symbolEmit c) s = .next t ∧ findBatch id t = none ∧ (t.car c).key = .released ∧ NoRuns (t.car c).timer ∧
      (t.car c).word = centreWord (activeWords c s) ∧ latched (.storeGuard c) t = true ∧ (t.car c).guardMarker = false ∧
      (t.car c).counters = { (s.car c).counters with dropped := satInc (s.car c).counters.dropped } ∧
      (∀ n, some n ∈ b.blocks → (readBlock n t).tag = .free) ∧
      t.store.freeCount = s.store.freeCount + (b.blocks.filterMap fun x => x).length ∧
      t.mgmt = { s.mgmt with alarms := s.mgmt.alarms ||| (Alarm.storeGuard c).mask } ∧
      t.tracker = s.tracker ∧ t.align = s.align ∧ t.probe = s.probe ∧ t.link = s.link ∧ (∀ d, d ≠ c → t.car d = s.car d) ∧
      let x := (s.car c).sched
      let y := (t.car c).sched
      let runs := (s.car c).timer.runs
      let freed := x.onAir = some id ∨ x.onAir = none
      y.stop = none ∧
      ((∀ q ∈ runs, ∃ o ∈ x.openSlots, o.slot = q.slot) → y.openSlots = x.openSlots.map fun o =>
        if o.slot = r.slot then { o with held := mergeCode o.held { code := .guardFault, id := some id } }
        else
          match runs.find? fun q => q.slot = o.slot with
          | some q => { o with held := mergeCode o.held { code := .cut, id := q.batchId } }
          | none => o) ∧
      (∀ a, findBatch a.id s = some a → a.id ≠ id →
        let state := if freed ∧ x.incoming = some a.id then BatchState.onAir else a.state
        ((∀ q ∈ runs, q.names a.id = false) → findBatch a.id t = some { a with state := state }) ∧
        ∀ q first count m last, q ∈ runs → q.content = .batch a.id first count m last → q.ended = false →
          (∀ p ∈ runs, p.names a.id = true → p = q) →
          findBatch a.id t = some { a with state := state, nextBlock := first }) ∧
      (∀ a, freed → x.incoming = some a → a ≠ id → y.onAir = some a ∧ y.incoming = none ∧
        y.stack = x.stack.filter fun q => q ≠ a ∧ q ≠ id) ∧
      (freed → x.incoming = none ∨ x.incoming = some id → y.onAir = none ∧ y.incoming = none ∧
        y.stack = x.stack.filter fun q => q ≠ id) ∧
      (¬ freed → y.onAir = x.onAir ∧ y.stack = x.stack.filter (fun q => q ≠ id) ∧
        y.incoming = if x.incoming = some id then none else x.incoming)) ∧
    (∀ n, j = 39 → b.blocks.getD i none = some n → (s.car c).guardArmed = false → ∃ t,
      exec (.symbolEmit c) s = .next t ∧ readBlock n t = { readBlock n s with tag := .spent } ∧
      (∀ k, k ≠ n → readBlock k t = readBlock k s) ∧ t.batches = s.batches ∧ (t.car c).key = (s.car c).key ∧
      (t.car c).word = wordOf r.words (symbolLevel r s) ∧ t.store.freeCount = s.store.freeCount ∧
      (t.car c).sched = (s.car c).sched ∧ t.mgmt = s.mgmt ∧ RunAdvances r (s.car c).timer (t.car c).timer ∧ ∀ d, d ≠ c → t.car d = s.car d) ∧
    (j = 39 → (s.car c).guardArmed = true → ∃ t,
      exec (.symbolEmit c) s = .next t ∧ t.store = s.store ∧ t.batches = s.batches ∧ (t.car c).guardArmed = false ∧
      t.mgmt = { s.mgmt with alarms := s.mgmt.alarms ||| (Alarm.storeGuard c).mask } ∧
      latched (.storeGuard c) t = true ∧
      (t.car c).guardMarker = ((s.car c).guardMarker || !latched (.storeGuard c) s) ∧
      (t.car c).key = (s.car c).key ∧ (t.car c).word = wordOf r.words (symbolLevel r s) ∧
      (t.car c).sched = (s.car c).sched ∧ RunAdvances r (s.car c).timer (t.car c).timer ∧
      ∀ d, d ≠ c → t.car d = s.car d)

/-- At the payload end of the finishing run: a marker run gives its slot MARKER_SENT, a batch run SENT, which the slot holds
unless it holds a code that stands higher; a run whose batch has ended while it emitted gives none. The run that held the
batch's last block ends it SENT; a batch stopped at a decision ends here, counted DROPPED; in both cases an incoming batch is
handed over and becomes ON_AIR. With no later run the KEYED key goes to TAIL, or is released where the tail is 0; with one it
stays KEYED (R31, R60, R92, R96, R97, R100, R102, R114). -/
def Obligations.PayloadEnds : Prop :=
  ∀ (c : Carrier) (s : State) (r : Run), (s.car c).timer.finishing = some r → s.tracker.tick = r.payloadEnd →
    (s.car c).key = .keyed → Scheduled s → (∀ id b, r.batchId = some id → findBatch id s = some b → b.carrier = c) → ∃ t,
    exec (.payloadEnd c) s = .next t ∧ (t.car c).timer.finishing = none ∧
    ((s.car c).timer.active = none → (s.car c).timer.armed = none →
      ((s.par c).tail = 0 → (t.car c).key = .released ∧ (t.car c).word = centreWord (activeWords c s)) ∧
      ((s.par c).tail ≠ 0 → (t.car c).key = .tail (s.tracker.tick + BitVec.ofNat 56 ((s.par c).tail * 10000)) ∧
        (t.car c).word = centreWord r.words)) ∧
    (((s.car c).timer.active.isSome = true ∨ (s.car c).timer.armed.isSome = true) → (t.car c).key = .keyed) ∧
    (∀ code id, (r.content = .marker ∧ code = OutcomeCode.markerSent ∧ id = none) ∨
        (r.ended = false ∧ code = OutcomeCode.sent ∧ id = r.batchId ∧ ∃ x b, r.batchId = some x ∧ findBatch x s = some b) →
      (t.car c).sched.openSlots = assignIn r.slot { code := code, id := id } (s.car c).sched.openSlots ∧
      ((∃ o ∈ (s.car c).sched.openSlots, o.slot = r.slot) →
        (t.car c).sched.openSlots = coded (fun x => x = r.slot) { code := code, id := id } (s.car c).sched.openSlots) ∧
      (∀ o ∈ (s.car c).sched.openSlots, o.slot = r.slot → o.held = none →
        { o with held := some { code := code, id := id } } ∈ (t.car c).sched.openSlots)) ∧
    (r.content = .marker → t.batches = s.batches ∧ (t.car c).counters = (s.car c).counters) ∧
    (∀ id, r.batchId = some id → r.ended = true →
      t.batches = s.batches ∧ (t.car c).counters = (s.car c).counters ∧ (t.car c).sched = (s.car c).sched) ∧
    (∀ id first count m last b, r.content = .batch id first count m last → r.ended = false → findBatch id s = some b →
      let passedOn := (s.car c).sched.onAir = some id →
        ((s.car c).sched.incoming = none → (t.car c).sched.onAir = none) ∧
        ∀ x, (s.car c).sched.incoming = some x → (t.car c).sched.onAir = some x ∧ (t.car c).sched.incoming = none ∧
          x ∉ (t.car c).sched.stack ∧ (findBatch x t).map Batch.state = some .onAir
      (last.index < first + count → findBatch id t = none ∧
        (t.car c).counters = { (s.car c).counters with sent := satInc (s.car c).counters.sent } ∧ passedOn) ∧
      (∀ why, first + count ≤ last.index → (s.car c).sched.stop = some why → (s.car c).sched.onAir = some id →
        findBatch id t = none ∧ (t.car c).sched.stop = none ∧
        (t.car c).counters = { (s.car c).counters with dropped := satInc (s.car c).counters.dropped } ∧ passedOn) ∧
      (first + count ≤ last.index → (s.car c).sched.stop = none ∨ (s.car c).sched.onAir ≠ some id →
        t.batches = s.batches ∧ (t.car c).counters = (s.car c).counters)) ∧
    t.tracker = s.tracker ∧ t.align = s.align ∧ t.probe = s.probe ∧ t.link = s.link ∧ t.mgmt = s.mgmt ∧
    ∀ d, d ≠ c → t.car d = s.car d

/-- The key-up instant of a PENDING key keys the carrier on the centre word of its waiting run, the opening run (R113, R116);
the expiry of a TAIL releases it, with the word C of the active bank and a presence run where RF is sensed (R115, R125); the
wake expiry makes an AWAKENING carrier ACTIVE (R122). Nothing else changes. A change of RF_SENSE with the clock present, and
the first edge after reset past, is sampled: present with the KEY line released starts a presence run or leaves one running, else it is broken; a QUIET check of
the carrier notes the first present tick, and one that passed at this very tick fails (R125, R147; at its end: log 19). A
NO_CARRIER check made at this very tick goes by the line as it now is: absent latches the alarm, present takes back what that
check latched (R124; log 45). While the clock is lost, or before the first edge after reset, only the pin moves (R126; the pin
as state, and that edge: log 6). A presence run of 1,000,000 ticks latches
STUCK_CARRIER and starts again (R125). -/
def Obligations.KeyAndMonitorTimers : Prop :=
  (∀ (c : Carrier) (s : State),
    (∀ r, (s.car c).key = .pending s.tracker.tick → (s.car c).timer.active = some r →
      exec (.keyUp c) s = .next (s.setCar c { s.car c with
        key := .keyed, word := centreWord r.words
        monitor := { (s.car c).monitor with opening := some r.slot, presence := none } })) ∧
    ((s.car c).key = .tail s.tracker.tick →
      exec (.tailExpiry c) s = .next (s.setCar c { s.car c with
        key := .released, word := centreWord (activeWords c s)
        monitor := { (s.car c).monitor with
          presence := (if (s.car c).monitor.rfSense = true then some s.tracker.tick else none) } })) ∧
    ((s.car c).power = .awakening s.tracker.tick →
      exec (.wakeExpiry c) s = .next (s.setCar c { s.car c with power := .active }))) ∧
  ∀ (c : Carrier) (s : State),
    (∀ p, s.tracker.ref ≠ .noClock → s.firstEdge = false →
      let k := s.car c
      exec (.rfSenseChange c p) s = .next (((s.setCar c { k with monitor := { k.monitor with
        rfPin := p, rfSense := p
        presence := (if p = true ∧ keyLine k.key = false then
            (match k.monitor.presence with
             | some x => some x
             | none => some s.tracker.tick)
          else none) } }).setProbe
        (if p = true ∧ s.probe.phase = ProbePhase.observe ∧ s.probe.carrier = c ∧ s.probe.firstRf = none then
          { s.probe with firstRf := some s.tracker.tick }
        else if p = true then { s.probe with result := s.probe.result.map fun r =>
          if r.carrier = c ∧ r.outcome = .pass ∧ r.endTick = some s.tracker.tick then
            { r with outcome := .fail, firstRf := some s.tracker.tick } else r }
        else s.probe)).setMgmt { s.mgmt with alarms :=
        match k.monitor.checked with
        | some q =>
          if q.tick ≠ s.tracker.tick then s.mgmt.alarms
          else if p = false then s.mgmt.alarms ||| (Alarm.noCarrier c).mask
          else if q.wasClear = true then s.mgmt.alarms &&& ~~~(Alarm.noCarrier c).mask
          else s.mgmt.alarms
        | none => s.mgmt.alarms })) ∧
    (∀ p, s.tracker.ref = .noClock ∨ s.firstEdge = true →
      exec (.rfSenseChange c p) s =
        .next (s.setCar c { s.car c with monitor := { (s.car c).monitor with rfPin := p } })) ∧
    (∀ x, (s.car c).monitor.presence = some x → s.tracker.tick = x + BitVec.ofNat 56 1000000 →
      keyLine (s.car c).key = false →
      exec (.stuckCarrier c) s = .next ((s.setCar c { s.car c with
        monitor := { (s.car c).monitor with presence := some s.tracker.tick } }).setMgmt
        { s.mgmt with alarms := s.mgmt.alarms ||| (Alarm.stuckCarrier c).mask }))

/-! ### Requests of the carriers' units (R84, R121, R122, R131 to R133) -/

/-- GUARD_TEST arms the carrier's guard test; MARKER_CLEAR empties its sequence and answers the bits discarded; a carrier
outside 1–4 is refused BAD_ARGUMENT and nothing changes (R84, R133). MARKER_LOAD with a length of 1–64 and at least that
many bits: a READY unit takes the bits in order, is answered OK with the length, and the load wakes a carrier in STANDBY; a
BUSY unit keeps its sequence and refuses MARKER_BUSY with MARKER_FAULT latched. A carrier or length out of range is refused
BAD_ARGUMENT and latches nothing (R122, R131, R132, R138). -/
def Obligations.MarkerRequestsJudged : Prop :=
  (∀ (f : RxFrame) (s : State), 1 ≤ f.body.length →
    (Takes 0x38 f s →
      (∀ c, carrierOf (field f.body 0 1) = some c → exec (.guardTest f) s =
        .next (replied 0x38 f 0x00 [] ((requested 0x38 f s).setCar c { s.car c with guardArmed := true }))) ∧
      (field f.body 0 1 = 0 ∨ 4 < field f.body 0 1 →
        exec (.guardTest f) s = .next (replied 0x38 f 0x02 [] (requested 0x38 f s)))) ∧
    (Takes 0x32 f s →
      (∀ c, carrierOf (field f.body 0 1) = some c → exec (.markerClear f) s =
        .next (replied 0x32 f 0x00 [BitVec.ofNat 8 (s.car c).marker.length]
          ((requested 0x32 f s).setCar c { s.car c with marker := [] }))) ∧
      (field f.body 0 1 = 0 ∨ 4 < field f.body 0 1 →
        exec (.markerClear f) s = .next (replied 0x32 f 0x02 [] (requested 0x32 f s))))) ∧
  ∀ (f : RxFrame) (s : State), Takes 0x31 f s → 2 ≤ f.body.length →
    let n := field f.body 1 1
    let u := requested 0x31 f s
    let good := 1 ≤ n ∧ n ≤ 64 ∧ n ≤ 8 * (f.body.length - 2)
    (∀ c, carrierOf (field f.body 0 1) = some c → good → (s.car c).marker = [] → ∃ bits : List Bool,
      bits.length = n ∧ (∀ i < n, bits[i]? = some ((f.body.getD (2 + i / 8) 0).getLsbD (7 - i % 8))) ∧
      exec (.markerLoad f) s = .next (replied 0x31 f 0x00 [BitVec.ofNat 8 n] (u.setCar c { s.car c with
        marker := bits
        power := (if (s.car c).power = .standby then
            (if (s.par c).wake = 0 then .active
              else .awakening (s.tracker.tick + BitVec.ofNat 56 ((s.par c).wake * 100000)))
          else (s.car c).power) }))) ∧
    (∀ c, carrierOf (field f.body 0 1) = some c → good → (s.car c).marker ≠ [] →
      exec (.markerLoad f) s = .next (replied 0x31 f 0x0A []
        (u.setMgmt { u.mgmt with alarms := u.mgmt.alarms ||| (Alarm.markerFault c).mask }))) ∧
    (carrierOf (field f.body 0 1) = none ∨ ¬ good →
      exec (.markerLoad f) s = .next (replied 0x31 f 0x02 [] u))

/-- STANDBY of a carrier with no record, a RELEASED key, no probe and a READY marker: STANDBY, answered OK; otherwise it changes
nothing and is answered NOOP_PENDING; the reply carries the power state after the request (R121, R165). A carrier outside 1–4 is
refused BAD_ARGUMENT, its power octet a free value (log 21). -/
def Obligations.StandbyJudged : Prop :=
  ∀ (f : RxFrame) (s : State), Takes 0x30 f s → 1 ≤ f.body.length →
    let u := requested 0x30 f s
    (∀ c, carrierOf (field f.body 0 1) = some c →
      let met := (∀ b ∈ s.batches, b.carrier ≠ c) ∧ (s.car c).key = .released ∧
        ¬ (s.probe.phase ≠ .idle ∧ s.probe.carrier = c) ∧ (s.car c).marker = []
      (met → exec (.standby f) s = .next (replied 0x30 f 0x00 [2] (u.setCar c { s.car c with power := .standby }))) ∧
      (¬ met → exec (.standby f) s = .next (replied 0x30 f 0x0B [match (s.car c).power with
        | .active => 0
        | .awakening _ => 1
        | .standby => 2] u))) ∧
    (carrierOf (field f.body 0 1) = none → ∃ x : Byte, exec (.standby f) s = .next (replied 0x30 f 0x02 [x] u))

/-! ### The Delay Probe (R139 to R151) -/

/-- PROBE_START clears the result and its flags, taken or not, and is judged in order: MEASURE_BUSY, NO_TIMING, CARRIER_STANDBY,
CARRIER_BUSY; a PATH start asserts LOAD and enters LOAD_SETTLE for 200,000 ticks, a QUIET one enters OBSERVE for 500,000 and
notes RF already present, at the start tick (the model's choice: log 48) (R140, R141, R147). -/
def Obligations.ProbeStartJudged : Prop :=
  ∀ (f : RxFrame) (s : State), Takes 0x34 f s → 3 ≤ f.body.length →
    let cleared : Probe := { s.probe with result := none, done := false, aborted := false }
    let u := (requested 0x34 f s).setProbe cleared
    let refused (code : Byte) := exec (.probeStart f) s = .next (replied 0x34 f code [] u)
    (carrierOf (field f.body 0 1) = none ∨ 1 < field f.body 1 1 → refused 0x02) ∧
    ∀ c, carrierOf (field f.body 0 1) = some c → field f.body 1 1 ≤ 1 →
      (s.probe.phase ≠ .idle → refused 0x07) ∧
      (s.probe.phase = .idle →
        (s.tracker.ref = .noClock ∨ s.tracker.ref = .acquiring → refused 0x0C) ∧
        (s.tracker.ref = .locked ∨ s.tracker.ref = .holdover →
          ((s.car c).power ≠ .active → refused 0x09) ∧
          ((s.car c).power = .active →
            ((s.car c).key ≠ .released ∨ (s.car c).sched.onAir.isSome = true → refused 0x08) ∧
            ((s.car c).key = .released → (s.car c).sched.onAir = none →
              let started : Probe := { cleared with
                carrier := c, adopt := field f.body 2 1 != 0, samples := List.replicate 16 .notTaken, emitted := 0
                assessment := none, aborting := false, noResult := false, firstRf := none }
              let content := BitVec.ofNat 8 (carrierNumber c) :: BitVec.ofNat 8 (field f.body 1 1) ::
                octets 7 s.tracker.tick.toNat
              (field f.body 1 1 = 0 → exec (.probeStart f) s = .next (replied 0x34 f 0x00 content
                ((u.setProbe { started with
                  mode := .path, phase := .loadSettle
                  phaseEnd := some (s.tracker.tick + BitVec.ofNat 56 200000) }).setCar c { s.car c with load := true }))) ∧
              (field f.body 1 1 = 1 → exec (.probeStart f) s = .next (replied 0x34 f 0x00 content
                (u.setProbe { started with
                  mode := .quiet, phase := .observe, phaseEnd := some (s.tracker.tick + BitVec.ofNat 56 500000)
                  firstRf := if (s.car c).monitor.rfSense = true then some s.tracker.tick else none })))))))

/-- PROBE_ABORT: with no probe running REFUSED_STATE; while aborting OK with no change; a QUIET probe ends at once with an
ABORTED record, a PATH probe before LOAD_RETURN returns the key if it holds it and goes to LOAD_RETURN for 200,000 ticks,
one in LOAD_RETURN keeps its phase end (R148, R149). PROBE_RESULT is answered OK with a record of 58 octets that opens with
the flags, the carrier, the mode and the phase of the running context, or of the record held; while DONE or ABORTED is set
it clears the record and both flags, else nothing (R150, R165; an item the reply does not carry is 0: log 20). -/
def Obligations.ProbeAbortAndResult : Prop :=
  (∀ (f : RxFrame) (s : State), Takes 0x35 f s →
    let u := requested 0x35 f s
    let k := s.car s.probe.carrier
    (s.probe.phase = .idle → exec (.probeAbort f) s = .next (replied 0x35 f 0x04 [] u)) ∧
    (s.probe.phase ≠ .idle → s.probe.aborting = true → exec (.probeAbort f) s = .next (replied 0x35 f 0x00 [] u)) ∧
    (s.probe.aborting = false →
      (s.probe.phase = .loadReturn → exec (.probeAbort f) s = .next (replied 0x35 f 0x00 []
        (u.setProbe { s.probe with aborting := true, abortPhase := .loadReturn }))) ∧
      (s.probe.phase = .observe → s.probe.noResult = false → ∃ r : ProbeRecord,
        r.carrier = s.probe.carrier ∧ r.mode = s.probe.mode ∧ r.outcome = .aborted ∧ r.abortPhase = .observe ∧
        r.samples = s.probe.samples ∧ r.adopted = false ∧
        exec (.probeAbort f) s = .next (replied 0x35 f 0x00 [] (u.setProbe { s.probe with
          phase := .idle, phaseEnd := none, aborting := false, result := some r, done := false, aborted := true }))) ∧
      (s.probe.phase = .loadSettle ∨ s.probe.phase = .keyUp ∨ s.probe.phase = .probe ∨ s.probe.phase = .keyDown →
        exec (.probeAbort f) s = .next (replied 0x35 f 0x00 []
          ((u.setProbe { s.probe with
            phase := .loadReturn, phaseEnd := some (s.tracker.tick + BitVec.ofNat 56 200000)
            aborting := true, abortPhase := s.probe.phase }).setCar s.probe.carrier
          (if k.key = .probe then { k with
            key := .released, word := centreWord (activeWords s.probe.carrier s)
            monitor := { k.monitor with
              presence := (if k.monitor.rfSense = true then some s.tracker.tick else none) } } else k)))))) ∧
  ∀ (f : RxFrame) (s : State), Takes 0x36 f s → s.probe.samples.length = 16 →
    (∀ r, s.probe.result = some r → r.samples.length = 16) → ∃ content : List Byte,
    content.length = 58 ∧
    exec (.probeResult f) s = .next (replied 0x36 f 0x00 content
      (if s.probe.done = true ∨ s.probe.aborted = true then
        (requested 0x36 f s).setProbe { s.probe with result := none, done := false, aborted := false }
        else requested 0x36 f s)) ∧
    (s.probe.phase ≠ .idle → content.take 5 =
      [BitVec.ofNat 8 (1 + (if s.probe.done then 2 else 0) + (if s.probe.aborted then 4 else 0) +
          (if s.probe.aborting then 8 else 0)),
        BitVec.ofNat 8 (carrierNumber s.probe.carrier), BitVec.ofNat 8 (modeOctet s.probe.mode),
        BitVec.ofNat 8 (phaseOctet s.probe.phase), 0]) ∧
    (∀ r, s.probe.phase = .idle → s.probe.result = some r →
      content.take 5 =
        [BitVec.ofNat 8 ((if s.probe.done then 2 else 0) + (if s.probe.aborted then 4 else 0)),
          BitVec.ofNat 8 (carrierNumber r.carrier), BitVec.ofNat 8 (modeOctet r.mode),
          BitVec.ofNat 8 (phaseOctet r.abortPhase), BitVec.ofNat 8 (probeOutcomeOctet r.outcome)] ∧
      (content.drop 5).take 33 = r.samples.flatMap (fun x => octets 2 (sampleNumber x)) ++ octets 1 r.delays)

/-- The timed phases of a PATH probe, each at its phase end: LOAD_SETTLE ends in KEY_UP with the key taken, the word set fixed
and the −3 word driven, and with a lead of 0 passes on to PROBE within the event; KEY_UP ends in PROBE with probe 0; probe i
is emitted 80,000 ticks after the one before; PROBE ends in KEY_DOWN with the key returned and the samples assessed,
not valid where the two words of the set are equal; KEY_DOWN ends in LOAD_RETURN (R127, R142, R143, R145; equal words: log 39).
-/
def Obligations.ProbePhasesPass : Prop :=
  ∀ s : State,
    let p := s.probe
    let c := p.carrier
    let k := s.car c
    let now := s.tracker.tick
    let counted (w : WordSet) (v : Int) : CarrierCounters := { k.counters with
      clampedWords := (if wordClamped w v = true then satInc k.counters.clampedWords else k.counters.clampedWords) }
    (p.phase = .loadSettle → p.phaseEnd = some now → 0 < (s.par c).lead →
      exec .loadSettleEnd s = .next ((s.setProbe { p with
        phase := .keyUp, phaseEnd := some (now + BitVec.ofNat 56 ((s.par c).lead * 10000)), words := activeWords c s }).setCar
          c { k with
            key := .probe, word := wordOf (activeWords c s) (-3), counters := counted (activeWords c s) (-3)
            monitor := { k.monitor with presence := none } })) ∧
    (p.phase = .loadSettle → p.phaseEnd = some now → (s.par c).lead = 0 → ∃ t, exec .loadSettleEnd s = .next t ∧
      t = (s.setProbe { p with
        phase := .probe, phaseEnd := some (now + BitVec.ofNat 56 1280000), words := activeWords c s, emitted := 1 }).setCar
          c { k with
            key := .probe, word := wordOf (activeWords c s) 3, counters := (t.car c).counters
            monitor := { k.monitor with presence := none } } ∧
      (wordClamped (activeWords c s) 3 = false → (t.car c).counters = counted (activeWords c s) (-3)) ∧
      (wordClamped (activeWords c s) (-3) = false → (t.car c).counters = counted (activeWords c s) 3)) ∧
    (p.phase = .keyUp → p.phaseEnd = some now →
      exec .keyUpEnd s = .next ((s.setProbe { p with
        phase := .probe, phaseEnd := some (now + BitVec.ofNat 56 1280000), emitted := 1 }).setCar
          c { k with word := wordOf p.words 3, counters := counted p.words 3 })) ∧
    (∀ p0, p.phase = .probe → p.phaseEnd = some (p0 + BitVec.ofNat 56 1280000) → p.emitted < 16 →
      now = p0 + BitVec.ofNat 56 (80000 * p.emitted) →
      exec .probeEmission s = .next ((s.setProbe { p with emitted := p.emitted + 1 }).setCar
        c { k with
          word := wordOf p.words (if p.emitted % 2 = 0 then 3 else -3)
          counters := counted p.words (if p.emitted % 2 = 0 then 3 else -3) })) ∧
    (p.phase = .probe → p.phaseEnd = some now → k.key = .probe →
      exec .probePhaseEnd s = .next ((s.setProbe { p with
        phase := .keyDown, phaseEnd := some (now + BitVec.ofNat 56 100000)
        assessment := some { assess p.samples with
          valid := (assess p.samples).valid && wordOf p.words 3 != wordOf p.words (-3) } }).setCar
          c { k with
            key := .released, word := centreWord (activeWords c s)
            monitor := { k.monitor with presence := (if k.monitor.rfSense = true then some now else none) } })) ∧
    (p.phase = .keyDown → p.phaseEnd = some now →
      exec .keyDownEnd s = .next (s.setProbe { p with
        phase := .loadReturn, phaseEnd := some (now + BitVec.ofNat 56 200000) }))

/-- The first MOD_SENSE change in the window of the probe emitted last, 1 to 20,000 ticks after it, is its sample; later
changes, changes outside a window, and those of other carriers leave the samples, as do changes in another phase or while
the clock is lost; a window that closes with no change is MISSED (R1, R144). The assessment of sixteen samples: if each is a
delay, the mean is the sum × 100 / 16 to the nearest ns, halves up, the spread is the largest less the smallest, and the
result is valid by them exactly when that is at most 20; with a sample MISSED it is not valid and has neither (R145; that equal
words make it not valid, R143, is in ProbePhasesPass). -/
def Obligations.ProbeSampled : Prop :=
  (∀ (s : State) (p0 : Tick) (i : Nat), s.probe.phase = .probe → s.probe.phaseEnd = some (p0 + BitVec.ofNat 56 1280000) →
    s.probe.emitted = i + 1 → s.probe.samples.length = 16 → i < 16 → s.tracker.ref ≠ .noClock →
    let c := s.probe.carrier
    let d := (s.tracker.tick - (p0 + BitVec.ofNat 56 (80000 * i))).toNat
    let t := s.setCar c { s.car c with modPin := !(s.car c).modPin }
    (1 ≤ d → d ≤ 20000 → s.probe.samples[i]? = some .notTaken →
      exec (.modSenseChange c) s = .next (t.setProbe { s.probe with samples := s.probe.samples.set i (.delay d) })) ∧
    (d = 0 ∨ 20000 < d ∨ (∃ n, s.probe.samples[i]? = some (.delay n)) →
      exec (.modSenseChange c) s = .next t) ∧
    (∀ e, e ≠ c → exec (.modSenseChange e) s = .next (s.setCar e { s.car e with modPin := !(s.car e).modPin })) ∧
    (d = 20000 → s.probe.samples[i]? = some .notTaken →
      exec .edgeWindowClose s = .next (s.setProbe { s.probe with samples := s.probe.samples.set i .missed })) ∧
    (d = 20000 → (∃ n, s.probe.samples[i]? = some (.delay n)) → exec .edgeWindowClose s = .next s)) ∧
  (∀ (c : Carrier) (s : State), s.probe.phase ≠ .probe ∨ s.tracker.ref = .noClock →
    exec (.modSenseChange c) s = .next (s.setCar c { s.car c with modPin := !(s.car c).modPin })) ∧
  (∀ ds : List Nat, ds.length = 16 → (∀ d ∈ ds, 1 ≤ d ∧ d ≤ 20000) → ∃ mean lo hi : Nat,
    assess (ds.map Sample.delay) = { valid := decide (hi - lo ≤ 20), mean := some mean, spread := some (hi - lo) } ∧
    lo ∈ ds ∧ hi ∈ ds ∧ (∀ d ∈ ds, lo ≤ d ∧ d ≤ hi) ∧
    2 * (ds.sum * 100) < 32 * mean + 16 ∧ 32 * mean ≤ 2 * (ds.sum * 100) + 16 ∧ 100 ≤ mean ∧ mean ≤ 2000000) ∧
  ∀ samples : List Sample, samples.length = 16 → Sample.missed ∈ samples →
    assess samples = { valid := false, mean := none, spread := none }

/-- The end of a probe. LOAD_RETURN ends, with no RESTART before it: LOAD is released, the phase is IDLE; not aborting, DONE
sets with VALID or INVALID, and a VALID mean with adopt set becomes the carrier's pending delay; aborting, ABORTED sets with
the phase of the abort and nothing is adopted. OBSERVE ends: DONE with PASS, or FAIL with the first present tick. With the
no-result mark no record and no flag (the end tick a record keeps: log 19) (R55, R146, R147, R148, R149). -/
def Obligations.ProbeEnds : Prop :=
  ∀ s : State, s.probe.phaseEnd = some s.tracker.tick →
    let p := s.probe
    let u := s.setCar p.carrier { s.car p.carrier with load := false }
    let idle : Probe := { p with phase := .idle, phaseEnd := none, aborting := false }
    (p.phase = .loadReturn → p.noResult = false → p.aborting = false → ∀ a, p.assessment = some a → ∃ r : ProbeRecord,
      r.carrier = p.carrier ∧ r.mode = .path ∧ r.outcome = (if a.valid = true then .valid else .invalid) ∧
      r.samples = p.samples ∧ r.mean = a.mean ∧ r.spread = a.spread ∧ r.adopt = p.adopt ∧
      r.adopted = (p.adopt && a.valid) ∧
      exec .loadReturnEnd s = .next ((u.setProbe { idle with result := some r, done := true, aborted := false }).setAlign
        (match a.mean with
         | some m =>
           if p.adopt = true ∧ a.valid = true then
             { s.align with delays := (s.align.delays.set p.carrier
                 { value := (s.align.delays.get p.carrier).value, pending := some m }) }
           else s.align
         | none => s.align))) ∧
    (p.phase = .loadReturn → p.noResult = false → p.aborting = true → ∃ r : ProbeRecord,
      r.carrier = p.carrier ∧ r.mode = p.mode ∧ r.outcome = .aborted ∧ r.abortPhase = p.abortPhase ∧
      r.samples = p.samples ∧ r.adopted = false ∧
      exec .loadReturnEnd s = .next (u.setProbe { idle with result := some r, done := false, aborted := true })) ∧
    (p.phase = .observe → p.noResult = false → ∃ r : ProbeRecord,
      r.carrier = p.carrier ∧ r.mode = .quiet ∧ r.outcome = (if p.firstRf = none then .pass else .fail) ∧
      r.firstRf = p.firstRf ∧ r.adopted = false ∧ r.endTick = some s.tracker.tick ∧
      exec .observeEnd s = .next (s.setProbe { idle with result := some r, done := true, aborted := false })) ∧
    (p.noResult = true →
      (p.phase = .loadReturn → exec .loadReturnEnd s = .next (u.setProbe idle)) ∧
      (p.phase = .observe → exec .observeEnd s = .next (s.setProbe idle)))

/-! ### The Management Unit (R164 to R175) -/

/-- LOAD_SITE in SERVING is refused NOT_IN_SERVICE and changes nothing; otherwise every parameter is written with its clamp, the
state is CONFIGURED, the path delays take effect with any pending delay withdrawn, STORE_LOW is evaluated, and the reply is
CLAMPED exactly when a value was replaced. Where a lead is raised, a slot whose decision instant under the new lead is reached
has no decision any more, and every other slot has as before: for instants within 2^70 sub-ticks of a common point (R86; the
mark for it: log 17; comparisons on the circle: log 4). A carrier whose lead is not raised stays in the next cycle where slot 0 of
that cycle has been decided (R62, R86), and by the model's choice (log 50) where it was passed over and never decided (R55, R81,
R164, R166, R167). -/
def Obligations.LoadSiteWrites : Prop :=
  ∀ (f : RxFrame) (s : State), Takes 0x20 f s → 81 ≤ f.body.length →
    let b := f.body
    (s.mgmt.service = .serving → exec (.loadSite f) s = .next (replied 0x20 f 0x03 [] (requested 0x20 f s))) ∧
    (s.mgmt.service ≠ .serving → ∃ (t : State) (code : Byte),
      exec (.loadSite f) s = .next (replied 0x20 f code [] t) ∧
      t.mgmt = { (requested 0x20 f s).mgmt with service := .configured, params := t.mgmt.params } ∧
      t.mgmt.params.w = max 1 (min 1000 (field b 0 2)) ∧ t.mgmt.params.h = min 3600 (field b 2 2) ∧
      t.mgmt.params.storeLow = min 2048 (field b 4 2) ∧ t.mgmt.params.storeHigh = min 2048 (field b 6 2) ∧
      t.mgmt.params.mask = BitVec.ofNat 32 (field b 8 4) &&& 0xFFFFFF1F ∧ t.mgmt.params.autoClear = (field b 12 1 != 0) ∧
      (∀ c, let o := 13 + 17 * (carrierNumber c - 1)
        (t.par c).enabled = (field b o 1 != 0) ∧ (t.par c).lead = min 120 (field b (o + 1) 2) ∧
        (t.par c).tail = min 500 (field b (o + 3) 2) ∧ (t.par c).wake = min 500 (field b (o + 5) 2) ∧
        (t.par c).claimMode = (if field b (o + 7) 1 = 0 then .strict else .replace) ∧
        (t.par c).markerSlot.map Fin.val = (if field b (o + 8) 1 = 255 then none else some (min 31 (field b (o + 8) 1))) ∧
        (t.par c).markerGroup.val = min 15 (field b (o + 9) 1) ∧ (t.par c).warn = min 2000 (field b (o + 10) 2) ∧
        (t.par c).reports = (field b (o + 12) 1 != 0) ∧
        (((t.align.delays.get c).value : Int) = max 0 (min 2000000 (signedField b (o + 13)))) ∧
        (t.align.delays.get c).pending = none ∧
        t.car c = { s.car c with sched := { (s.car c).sched with settled := (t.car c).sched.settled } } ∧
        ((t.par c).lead ≤ (s.par c).lead → t.car c = s.car c ∧ ∀ e g, timingAvailable s = true →
          s.tracker.epoch = some e → s.tracker.next = some g → (e + 1).toNat % 4 = 0 →
          unsettled c (slotAt (e + 1) 0 g) s = false → currentCycle c t = some (BitVec.ofNat 30 ((e + 1).toNat / 4))) ∧
        ((s.par c).lead < (t.par c).lead → ∀ z : Fx,
          (∀ sl ∈ candidateSlots s, (slotStart sl - z).toNat < 2 ^ 70) →
          (∀ y, (s.car c).sched.settled = some y → (y - z).toNat < 2 ^ 70) →
          (s.tracker.tick + BitVec.ofNat 56 ((t.par c).lead * 10000 + 25000) - fxTick z).toNat < 2 ^ 54 →
          ∀ sl ∈ candidateSlots s, unsettled c sl t = (unsettled c sl s &&
            !tickReached s.tracker.tick (fxTick (slotStart sl) - BitVec.ofNat 56 ((t.par c).lead * 10000 + 25000))))) ∧
      t.store = { s.store with
        low := (storeLowFlag t.mgmt.params.storeLow t.mgmt.params.storeHigh s.store.freeCount s.store.low) } ∧
      t.align = { s.align with delays := t.align.delays } ∧ t.tracker = s.tracker ∧ t.batches = s.batches ∧
      t.probe = s.probe ∧ t.link = (requested 0x20 f s).link ∧
      (code = 0x00 ∨ code = 0x01) ∧
      (code = 0x00 ↔
        (1 ≤ field b 0 2 ∧ field b 0 2 ≤ 1000) ∧ field b 2 2 ≤ 3600 ∧ field b 4 2 ≤ 2048 ∧ field b 6 2 ≤ 2048 ∧
        ∀ c, let o := 13 + 17 * (carrierNumber c - 1)
          field b (o + 1) 2 ≤ 120 ∧ field b (o + 3) 2 ≤ 500 ∧ field b (o + 5) 2 ≤ 500 ∧ field b (o + 7) 1 ≤ 1 ∧
          (field b (o + 8) 1 ≤ 31 ∨ field b (o + 8) 1 = 255) ∧ field b (o + 9) 1 ≤ 15 ∧ field b (o + 10) 2 ≤ 2000 ∧
          0 ≤ signedField b (o + 13) ∧ signedField b (o + 13) ≤ 2000000))

/-- ENABLE_SERVICE: UNCONFIGURED refuses REFUSED_STATE; CONFIGURED goes to SERVING and SERVING stays, each answered OK with the
identity: part code 4C34h, revision 01h, the site address and both tags (R164, R165, R169). -/
def Obligations.EnableServiceJudged : Prop :=
  ∀ (f : RxFrame) (s : State), Takes 0x21 f s →
    let u := requested 0x21 f s
    let identity : List Byte := 0x4C :: 0x34 :: 0x01 :: (octets 2 s.link.siteAddress.toNat ++
      octets 2 s.align.active.tag.toNat ++ octets 2 s.align.staged.tag.toNat)
    (s.mgmt.service = .unconfigured → exec (.enableService f) s = .next (replied 0x21 f 0x04 [] u)) ∧
    (s.mgmt.service = .configured → exec (.enableService f) s =
      .next (replied 0x21 f 0x00 identity (u.setMgmt { u.mgmt with service := .serving }))) ∧
    (s.mgmt.service = .serving → exec (.enableService f) s = .next (replied 0x21 f 0x00 identity u))

/-- RESTART is refused REFUSED_STATE in UNCONFIGURED. Otherwise every batch ends, the store is all FREE, every key is released
and every run discarded, slots, outcomes, margins, markers and guard tests are cleared, a probe is aborted and leaves no
result, alarms and counters are clear, the state is CONFIGURED with cause RESTART, and the reply joins the own queue; the
Tracker, the tables and delays, the power states and the parameters stand (as does the settled mark: log 17) (R79, R85,
R108, R117, R130, R149, R163, R164, R175). -/
def Obligations.RestartClears : Prop :=
  ∀ (f : RxFrame) (s : State), Takes 0x22 f s → Scheduled s → BlocksAccounted s → ProbeHoldsKey s →
    (s.mgmt.service = .unconfigured → exec (.restart f) s = .next (replied 0x22 f 0x04 [] (requested 0x22 f s))) ∧
    (s.mgmt.service ≠ .unconfigured → ∃ t, exec (.restart f) s = .next (replied 0x22 f 0x00 [] t) ∧
      t.batches = [] ∧ t.store.freeCount = 2048 ∧ (∀ n, n < 2048 → (readBlock n t).tag = .free) ∧
      t.mgmt = { service := .configured, params := s.mgmt.params, alarms := 0, cause := .restart,
                 counters := PartCounters.reset } ∧
      t.probe.result = none ∧ t.probe.done = false ∧ t.probe.aborted = false ∧
      (t.probe.phase ≠ .idle → t.probe.phase = .loadReturn ∧ t.probe.aborting = true ∧ t.probe.noResult = true) ∧
      t.tracker = s.tracker ∧ t.align = s.align ∧ t.link = (requested 0x22 f s).link ∧
      ∀ c, Idle (t.car c) ∧ (t.car c).key = .released ∧ (t.car c).word = centreWord (activeWords c s) ∧
        (t.car c).sched.openSlots = [] ∧ (t.car c).sched.outcomes.label = none ∧
        (∀ i : Fin 32, (t.car c).sched.outcomes.entries.get i = none) ∧ (t.car c).sched.lastMargin = none ∧
        (t.car c).sched.goodStarts = 0 ∧ (t.car c).marker = [] ∧ (t.car c).guardArmed = false ∧
        (t.car c).guardMarker = false ∧ (t.car c).sched.settled = (s.car c).sched.settled ∧
        (t.car c).counters = CarrierCounters.reset ∧ (t.car c).power = (s.car c).power)

/-- STATUS and SCHEDULE change nothing but the request count. STATUS carries 177 octets: it opens with the service state, the
reset cause, the alarm set and the mask; the reference state and the epoch number stand at octet 11, the tags at 43, and at
61 and each 29 octets further a carrier's enabled flag, key state and power state. SCHEDULE carries 140 octets and 10 more
for each of the first ten records of its carrier, and opens with the carrier, the status of its on-air batch and that
batch's id; a carrier outside 1–4 is refused BAD_ARGUMENT (R21, R109, R128, R165, R170, R171). Two clauses are the model's
choice: that the enabled octet is 1 for set and 0 for clear (log 49), and that the id is 0 where no batch is on air (log 44). -/
def Obligations.StatusAndScheduleRead : Prop :=
  ∀ (f : RxFrame) (s : State),
    (Takes 0x23 f s → ∃ content : List Byte,
      exec (.status f) s = .next (replied 0x23 f 0x00 content (requested 0x23 f s)) ∧ content.length = 177 ∧
      content.take 10 = [BitVec.ofNat 8 (serviceOctet s.mgmt.service), BitVec.ofNat 8 (causeOctet s.mgmt.cause)] ++
        octets 4 s.mgmt.alarms.toNat ++ octets 4 s.mgmt.params.mask.toNat ∧
      (content.drop 11).take 6 = [BitVec.ofNat 8 (refOctet s.tracker.ref)] ++
        (match s.tracker.epoch with
         | some e => 1 :: octets 4 e.toNat
         | none => [0, 0, 0, 0, 0]) ∧
      (content.drop 43).take 4 = octets 2 s.align.active.tag.toNat ++ octets 2 s.align.staged.tag.toNat ∧
      ∀ c, (content.drop (61 + 29 * (carrierNumber c - 1))).take 3 =
        [if (s.par c).enabled = true then 1 else 0, BitVec.ofNat 8 (keyOctet (s.car c).key),
          BitVec.ofNat 8 (powerOctet (s.car c).power)]) ∧
    (Takes 0x2D f s → 1 ≤ f.body.length →
      (∀ c, carrierOf (field f.body 0 1) = some c → ∃ content : List Byte,
        exec (.schedule f) s = .next (replied 0x2D f 0x00 content (requested 0x2D f s)) ∧
        content.length = 140 + 10 * min 10 (s.batches.filter fun b => b.carrier = c).length ∧
        content.take 4 = [BitVec.ofNat 8 (carrierNumber c), BitVec.ofNat 8 (onAirStatus c s)] ++
          octets 2 (((s.car c).sched.onAir.map BitVec.toNat).getD 0)) ∧
      (field f.body 0 1 = 0 ∨ 4 < field f.body 0 1 →
        exec (.schedule f) s = .next (replied 0x2D f 0x02 [] (requested 0x2D f s))))

/-- COUNTERS answers 164 octets that open with the part-wide counters and carry the request count, itself counted, at octet 26;
then every counter is 0. CLEAR_ALARMS makes the named alarms clear, bits 5–7 ignored, with the test marker of a cleared
STORE_GUARD, and answers the set latched afterwards (R173, R174). -/
def Obligations.CountersAndAlarmsCleared : Prop :=
  ∀ (f : RxFrame) (s : State),
    (Takes 0x24 f s → ∃ (content : List Byte) (t : State),
      exec (.counters f) s = .next (replied 0x24 f 0x00 content t) ∧ content.length = 164 ∧
      content.take 10 = octets 2 s.mgmt.counters.badFrames.toNat ++ octets 2 s.mgmt.counters.ownDrops.toNat ++
        octets 2 s.mgmt.counters.relayDrops.toNat ++ octets 2 s.mgmt.counters.marksRejected.toNat ++
        octets 2 s.mgmt.counters.strayPulses.toNat ∧
      (content.drop 26).take 2 = octets 2 (satInc s.mgmt.counters.requests).toNat ∧
      t = ((heard 0x24 f s).setMgmt { s.mgmt with counters := PartCounters.reset }).setCarriers t.carriers ∧
      ∀ c, t.car c = { s.car c with counters := CarrierCounters.reset }) ∧
    (Takes 0x25 f s → 4 ≤ f.body.length →
      let set := BitVec.ofNat 32 (field f.body 0 4)
      let left := s.mgmt.alarms &&& ~~~(set &&& 0xFFFFFF1F)
      ∃ t : State, exec (.clearAlarms f) s = .next (replied 0x25 f 0x00 (octets 4 left.toNat) t) ∧
        t = ((requested 0x25 f s).setMgmt { (requested 0x25 f s).mgmt with alarms := left }).setCarriers t.carriers ∧
        ∀ c, t.car c = { s.car c with guardMarker :=
          ((s.car c).guardMarker && !(set.getLsbD (11 + 6 * (carrierNumber c - 1)))) })
end

