-- ==== Sys2Proof/Laws/State.lean ====
section
/-! SUPPORT. One lemma per field per update of State, and reading back a carrier (true by `rfl`, tagged `@[simp]`). -/

namespace Sys2Proof.Machine

/-! ### Four values, one for each carrier -/

@[simp] theorem Quad.get_set_same {α : Type} (q : Quad α) (c : Carrier) (x : α) : (q.set c x).get c = x := by
  cases c <;> rfl

theorem Quad.get_set_other {α : Type} (q : Quad α) {c d : Carrier} (x : α) (h : d ≠ c) :
    (q.set c x).get d = q.get d := by
  cases c <;> cases d <;> first | rfl | exact absurd rfl h

theorem Quad.get_set {α : Type} (q : Quad α) (c d : Carrier) (x : α) :
    (q.set c x).get d = if d = c then x else q.get d := by
  cases c <;> cases d <;> rfl

@[simp] theorem Quad.get_map {α β : Type} (f : Carrier → α → β) (q : Quad α) (c : Carrier) :
    (q.map f).get c = f c (q.get c) := by
  cases c <;> rfl

@[simp] theorem Quad.get_all {α : Type} (x : α) (c : Carrier) : (Quad.all x).get c = x := by
  cases c <;> rfl

@[simp] theorem Quad.set_set {α : Type} (q : Quad α) (c : Carrier) (x y : α) : (q.set c x).set c y = q.set c y := by
  cases c <;> rfl

@[simp] theorem Quad.set_get {α : Type} (q : Quad α) (c : Carrier) : q.set c (q.get c) = q := by
  cases c <;> rfl

theorem Quad.ext_get {α : Type} {p q : Quad α} (h : ∀ c, p.get c = q.get c) : p = q := by
  cases p; cases q
  have h1 := h .c1; have h2 := h .c2; have h3 := h .c3; have h4 := h .c4
  simp only [Quad.get] at h1 h2 h3 h4
  subst h1 h2 h3 h4; rfl

/-! ### State.setTracker -/

@[simp] theorem State.setTracker_tracker (s : State) (x : Tracker) : (s.setTracker x).tracker = x := rfl
@[simp] theorem State.setTracker_align (s : State) (x : Tracker) : (s.setTracker x).align = s.align := rfl
@[simp] theorem State.setTracker_batches (s : State) (x : Tracker) : (s.setTracker x).batches = s.batches := rfl
@[simp] theorem State.setTracker_store (s : State) (x : Tracker) : (s.setTracker x).store = s.store := rfl
@[simp] theorem State.setTracker_carriers (s : State) (x : Tracker) : (s.setTracker x).carriers = s.carriers := rfl
@[simp] theorem State.setTracker_probe (s : State) (x : Tracker) : (s.setTracker x).probe = s.probe := rfl
@[simp] theorem State.setTracker_link (s : State) (x : Tracker) : (s.setTracker x).link = s.link := rfl
@[simp] theorem State.setTracker_mgmt (s : State) (x : Tracker) : (s.setTracker x).mgmt = s.mgmt := rfl
@[simp] theorem State.setTracker_firstEdge (s : State) (x : Tracker) : (s.setTracker x).firstEdge = s.firstEdge := rfl
@[simp] theorem State.setTracker_pending (s : State) (x : Tracker) : (s.setTracker x).pending = s.pending := rfl
@[simp] theorem State.setTracker_setTracker (s : State) (x y : Tracker) : (s.setTracker x).setTracker y = s.setTracker y := rfl
@[simp] theorem State.setTracker_self (s : State) : s.setTracker s.tracker = s := rfl
@[simp] theorem State.setTracker_car (s : State) (x : Tracker) (c : Carrier) : (s.setTracker x).car c = s.car c := rfl
@[simp] theorem State.setTracker_par (s : State) (x : Tracker) (c : Carrier) : (s.setTracker x).par c = s.par c := rfl
@[simp] theorem State.setTracker_now (s : State) (x : Tracker) : (s.setTracker x).now = x.tick := rfl

/-! ### State.setAlign -/

@[simp] theorem State.setAlign_tracker (s : State) (x : Align) : (s.setAlign x).tracker = s.tracker := rfl
@[simp] theorem State.setAlign_align (s : State) (x : Align) : (s.setAlign x).align = x := rfl
@[simp] theorem State.setAlign_batches (s : State) (x : Align) : (s.setAlign x).batches = s.batches := rfl
@[simp] theorem State.setAlign_store (s : State) (x : Align) : (s.setAlign x).store = s.store := rfl
@[simp] theorem State.setAlign_carriers (s : State) (x : Align) : (s.setAlign x).carriers = s.carriers := rfl
@[simp] theorem State.setAlign_probe (s : State) (x : Align) : (s.setAlign x).probe = s.probe := rfl
@[simp] theorem State.setAlign_link (s : State) (x : Align) : (s.setAlign x).link = s.link := rfl
@[simp] theorem State.setAlign_mgmt (s : State) (x : Align) : (s.setAlign x).mgmt = s.mgmt := rfl
@[simp] theorem State.setAlign_firstEdge (s : State) (x : Align) : (s.setAlign x).firstEdge = s.firstEdge := rfl
@[simp] theorem State.setAlign_pending (s : State) (x : Align) : (s.setAlign x).pending = s.pending := rfl
@[simp] theorem State.setAlign_setAlign (s : State) (x y : Align) : (s.setAlign x).setAlign y = s.setAlign y := rfl
@[simp] theorem State.setAlign_self (s : State) : s.setAlign s.align = s := rfl
@[simp] theorem State.setAlign_car (s : State) (x : Align) (c : Carrier) : (s.setAlign x).car c = s.car c := rfl
@[simp] theorem State.setAlign_par (s : State) (x : Align) (c : Carrier) : (s.setAlign x).par c = s.par c := rfl
@[simp] theorem State.setAlign_now (s : State) (x : Align) : (s.setAlign x).now = s.now := rfl

/-! ### State.setBatches -/

@[simp] theorem State.setBatches_tracker (s : State) (x : List Batch) : (s.setBatches x).tracker = s.tracker := rfl
@[simp] theorem State.setBatches_align (s : State) (x : List Batch) : (s.setBatches x).align = s.align := rfl
@[simp] theorem State.setBatches_batches (s : State) (x : List Batch) : (s.setBatches x).batches = x := rfl
@[simp] theorem State.setBatches_store (s : State) (x : List Batch) : (s.setBatches x).store = s.store := rfl
@[simp] theorem State.setBatches_carriers (s : State) (x : List Batch) : (s.setBatches x).carriers = s.carriers := rfl
@[simp] theorem State.setBatches_probe (s : State) (x : List Batch) : (s.setBatches x).probe = s.probe := rfl
@[simp] theorem State.setBatches_link (s : State) (x : List Batch) : (s.setBatches x).link = s.link := rfl
@[simp] theorem State.setBatches_mgmt (s : State) (x : List Batch) : (s.setBatches x).mgmt = s.mgmt := rfl
@[simp] theorem State.setBatches_firstEdge (s : State) (x : List Batch) : (s.setBatches x).firstEdge = s.firstEdge := rfl
@[simp] theorem State.setBatches_pending (s : State) (x : List Batch) : (s.setBatches x).pending = s.pending := rfl
@[simp] theorem State.setBatches_setBatches (s : State) (x y : List Batch) : (s.setBatches x).setBatches y = s.setBatches y := rfl
@[simp] theorem State.setBatches_self (s : State) : s.setBatches s.batches = s := rfl
@[simp] theorem State.setBatches_car (s : State) (x : List Batch) (c : Carrier) : (s.setBatches x).car c = s.car c := rfl
@[simp] theorem State.setBatches_par (s : State) (x : List Batch) (c : Carrier) : (s.setBatches x).par c = s.par c := rfl
@[simp] theorem State.setBatches_now (s : State) (x : List Batch) : (s.setBatches x).now = s.now := rfl

/-! ### State.setStore -/

@[simp] theorem State.setStore_tracker (s : State) (x : Store) : (s.setStore x).tracker = s.tracker := rfl
@[simp] theorem State.setStore_align (s : State) (x : Store) : (s.setStore x).align = s.align := rfl
@[simp] theorem State.setStore_batches (s : State) (x : Store) : (s.setStore x).batches = s.batches := rfl
@[simp] theorem State.setStore_store (s : State) (x : Store) : (s.setStore x).store = x := rfl
@[simp] theorem State.setStore_carriers (s : State) (x : Store) : (s.setStore x).carriers = s.carriers := rfl
@[simp] theorem State.setStore_probe (s : State) (x : Store) : (s.setStore x).probe = s.probe := rfl
@[simp] theorem State.setStore_link (s : State) (x : Store) : (s.setStore x).link = s.link := rfl
@[simp] theorem State.setStore_mgmt (s : State) (x : Store) : (s.setStore x).mgmt = s.mgmt := rfl
@[simp] theorem State.setStore_firstEdge (s : State) (x : Store) : (s.setStore x).firstEdge = s.firstEdge := rfl
@[simp] theorem State.setStore_pending (s : State) (x : Store) : (s.setStore x).pending = s.pending := rfl
@[simp] theorem State.setStore_setStore (s : State) (x y : Store) : (s.setStore x).setStore y = s.setStore y := rfl
@[simp] theorem State.setStore_self (s : State) : s.setStore s.store = s := rfl
@[simp] theorem State.setStore_car (s : State) (x : Store) (c : Carrier) : (s.setStore x).car c = s.car c := rfl
@[simp] theorem State.setStore_par (s : State) (x : Store) (c : Carrier) : (s.setStore x).par c = s.par c := rfl
@[simp] theorem State.setStore_now (s : State) (x : Store) : (s.setStore x).now = s.now := rfl

/-! ### State.setCarriers -/

@[simp] theorem State.setCarriers_tracker (s : State) (x : Quad CarrierState) : (s.setCarriers x).tracker = s.tracker := rfl
@[simp] theorem State.setCarriers_align (s : State) (x : Quad CarrierState) : (s.setCarriers x).align = s.align := rfl
@[simp] theorem State.setCarriers_batches (s : State) (x : Quad CarrierState) : (s.setCarriers x).batches = s.batches := rfl
@[simp] theorem State.setCarriers_store (s : State) (x : Quad CarrierState) : (s.setCarriers x).store = s.store := rfl
@[simp] theorem State.setCarriers_carriers (s : State) (x : Quad CarrierState) : (s.setCarriers x).carriers = x := rfl
@[simp] theorem State.setCarriers_probe (s : State) (x : Quad CarrierState) : (s.setCarriers x).probe = s.probe := rfl
@[simp] theorem State.setCarriers_link (s : State) (x : Quad CarrierState) : (s.setCarriers x).link = s.link := rfl
@[simp] theorem State.setCarriers_mgmt (s : State) (x : Quad CarrierState) : (s.setCarriers x).mgmt = s.mgmt := rfl
@[simp] theorem State.setCarriers_firstEdge (s : State) (x : Quad CarrierState) : (s.setCarriers x).firstEdge = s.firstEdge := rfl
@[simp] theorem State.setCarriers_pending (s : State) (x : Quad CarrierState) : (s.setCarriers x).pending = s.pending := rfl
@[simp] theorem State.setCarriers_setCarriers (s : State) (x y : Quad CarrierState) : (s.setCarriers x).setCarriers y = s.setCarriers y := rfl
@[simp] theorem State.setCarriers_self (s : State) : s.setCarriers s.carriers = s := rfl
@[simp] theorem State.setCarriers_car (s : State) (x : Quad CarrierState) (c : Carrier) : (s.setCarriers x).car c = x.get c := rfl
@[simp] theorem State.setCarriers_par (s : State) (x : Quad CarrierState) (c : Carrier) : (s.setCarriers x).par c = s.par c := rfl
@[simp] theorem State.setCarriers_now (s : State) (x : Quad CarrierState) : (s.setCarriers x).now = s.now := rfl

/-! ### State.setProbe -/

@[simp] theorem State.setProbe_tracker (s : State) (x : Probe) : (s.setProbe x).tracker = s.tracker := rfl
@[simp] theorem State.setProbe_align (s : State) (x : Probe) : (s.setProbe x).align = s.align := rfl
@[simp] theorem State.setProbe_batches (s : State) (x : Probe) : (s.setProbe x).batches = s.batches := rfl
@[simp] theorem State.setProbe_store (s : State) (x : Probe) : (s.setProbe x).store = s.store := rfl
@[simp] theorem State.setProbe_carriers (s : State) (x : Probe) : (s.setProbe x).carriers = s.carriers := rfl
@[simp] theorem State.setProbe_probe (s : State) (x : Probe) : (s.setProbe x).probe = x := rfl
@[simp] theorem State.setProbe_link (s : State) (x : Probe) : (s.setProbe x).link = s.link := rfl
@[simp] theorem State.setProbe_mgmt (s : State) (x : Probe) : (s.setProbe x).mgmt = s.mgmt := rfl
@[simp] theorem State.setProbe_firstEdge (s : State) (x : Probe) : (s.setProbe x).firstEdge = s.firstEdge := rfl
@[simp] theorem State.setProbe_pending (s : State) (x : Probe) : (s.setProbe x).pending = s.pending := rfl
@[simp] theorem State.setProbe_setProbe (s : State) (x y : Probe) : (s.setProbe x).setProbe y = s.setProbe y := rfl
@[simp] theorem State.setProbe_self (s : State) : s.setProbe s.probe = s := rfl
@[simp] theorem State.setProbe_car (s : State) (x : Probe) (c : Carrier) : (s.setProbe x).car c = s.car c := rfl
@[simp] theorem State.setProbe_par (s : State) (x : Probe) (c : Carrier) : (s.setProbe x).par c = s.par c := rfl
@[simp] theorem State.setProbe_now (s : State) (x : Probe) : (s.setProbe x).now = s.now := rfl

/-! ### State.setLink -/

@[simp] theorem State.setLink_tracker (s : State) (x : Link) : (s.setLink x).tracker = s.tracker := rfl
@[simp] theorem State.setLink_align (s : State) (x : Link) : (s.setLink x).align = s.align := rfl
@[simp] theorem State.setLink_batches (s : State) (x : Link) : (s.setLink x).batches = s.batches := rfl
@[simp] theorem State.setLink_store (s : State) (x : Link) : (s.setLink x).store = s.store := rfl
@[simp] theorem State.setLink_carriers (s : State) (x : Link) : (s.setLink x).carriers = s.carriers := rfl
@[simp] theorem State.setLink_probe (s : State) (x : Link) : (s.setLink x).probe = s.probe := rfl
@[simp] theorem State.setLink_link (s : State) (x : Link) : (s.setLink x).link = x := rfl
@[simp] theorem State.setLink_mgmt (s : State) (x : Link) : (s.setLink x).mgmt = s.mgmt := rfl
@[simp] theorem State.setLink_firstEdge (s : State) (x : Link) : (s.setLink x).firstEdge = s.firstEdge := rfl
@[simp] theorem State.setLink_pending (s : State) (x : Link) : (s.setLink x).pending = s.pending := rfl
@[simp] theorem State.setLink_setLink (s : State) (x y : Link) : (s.setLink x).setLink y = s.setLink y := rfl
@[simp] theorem State.setLink_self (s : State) : s.setLink s.link = s := rfl
@[simp] theorem State.setLink_car (s : State) (x : Link) (c : Carrier) : (s.setLink x).car c = s.car c := rfl
@[simp] theorem State.setLink_par (s : State) (x : Link) (c : Carrier) : (s.setLink x).par c = s.par c := rfl
@[simp] theorem State.setLink_now (s : State) (x : Link) : (s.setLink x).now = s.now := rfl

/-! ### State.setMgmt -/

@[simp] theorem State.setMgmt_tracker (s : State) (x : Mgmt) : (s.setMgmt x).tracker = s.tracker := rfl
@[simp] theorem State.setMgmt_align (s : State) (x : Mgmt) : (s.setMgmt x).align = s.align := rfl
@[simp] theorem State.setMgmt_batches (s : State) (x : Mgmt) : (s.setMgmt x).batches = s.batches := rfl
@[simp] theorem State.setMgmt_store (s : State) (x : Mgmt) : (s.setMgmt x).store = s.store := rfl
@[simp] theorem State.setMgmt_carriers (s : State) (x : Mgmt) : (s.setMgmt x).carriers = s.carriers := rfl
@[simp] theorem State.setMgmt_probe (s : State) (x : Mgmt) : (s.setMgmt x).probe = s.probe := rfl
@[simp] theorem State.setMgmt_link (s : State) (x : Mgmt) : (s.setMgmt x).link = s.link := rfl
@[simp] theorem State.setMgmt_mgmt (s : State) (x : Mgmt) : (s.setMgmt x).mgmt = x := rfl
@[simp] theorem State.setMgmt_firstEdge (s : State) (x : Mgmt) : (s.setMgmt x).firstEdge = s.firstEdge := rfl
@[simp] theorem State.setMgmt_pending (s : State) (x : Mgmt) : (s.setMgmt x).pending = s.pending := rfl
@[simp] theorem State.setMgmt_setMgmt (s : State) (x y : Mgmt) : (s.setMgmt x).setMgmt y = s.setMgmt y := rfl
@[simp] theorem State.setMgmt_self (s : State) : s.setMgmt s.mgmt = s := rfl
@[simp] theorem State.setMgmt_car (s : State) (x : Mgmt) (c : Carrier) : (s.setMgmt x).car c = s.car c := rfl
@[simp] theorem State.setMgmt_now (s : State) (x : Mgmt) : (s.setMgmt x).now = s.now := rfl

/-! ### State.setFirstEdge -/

@[simp] theorem State.setFirstEdge_tracker (s : State) (x : Bool) : (s.setFirstEdge x).tracker = s.tracker := rfl
@[simp] theorem State.setFirstEdge_align (s : State) (x : Bool) : (s.setFirstEdge x).align = s.align := rfl
@[simp] theorem State.setFirstEdge_batches (s : State) (x : Bool) : (s.setFirstEdge x).batches = s.batches := rfl
@[simp] theorem State.setFirstEdge_store (s : State) (x : Bool) : (s.setFirstEdge x).store = s.store := rfl
@[simp] theorem State.setFirstEdge_carriers (s : State) (x : Bool) : (s.setFirstEdge x).carriers = s.carriers := rfl
@[simp] theorem State.setFirstEdge_probe (s : State) (x : Bool) : (s.setFirstEdge x).probe = s.probe := rfl
@[simp] theorem State.setFirstEdge_link (s : State) (x : Bool) : (s.setFirstEdge x).link = s.link := rfl
@[simp] theorem State.setFirstEdge_mgmt (s : State) (x : Bool) : (s.setFirstEdge x).mgmt = s.mgmt := rfl
@[simp] theorem State.setFirstEdge_firstEdge (s : State) (x : Bool) : (s.setFirstEdge x).firstEdge = x := rfl
@[simp] theorem State.setFirstEdge_pending (s : State) (x : Bool) : (s.setFirstEdge x).pending = s.pending := rfl
@[simp] theorem State.setFirstEdge_setFirstEdge (s : State) (x y : Bool) : (s.setFirstEdge x).setFirstEdge y = s.setFirstEdge y := rfl
@[simp] theorem State.setFirstEdge_self (s : State) : s.setFirstEdge s.firstEdge = s := rfl
@[simp] theorem State.setFirstEdge_car (s : State) (x : Bool) (c : Carrier) : (s.setFirstEdge x).car c = s.car c := rfl
@[simp] theorem State.setFirstEdge_par (s : State) (x : Bool) (c : Carrier) : (s.setFirstEdge x).par c = s.par c := rfl
@[simp] theorem State.setFirstEdge_now (s : State) (x : Bool) : (s.setFirstEdge x).now = s.now := rfl

/-! ### State.setPending -/

@[simp] theorem State.setPending_tracker (s : State) (x : List Instr) : (s.setPending x).tracker = s.tracker := rfl
@[simp] theorem State.setPending_align (s : State) (x : List Instr) : (s.setPending x).align = s.align := rfl
@[simp] theorem State.setPending_batches (s : State) (x : List Instr) : (s.setPending x).batches = s.batches := rfl
@[simp] theorem State.setPending_store (s : State) (x : List Instr) : (s.setPending x).store = s.store := rfl
@[simp] theorem State.setPending_carriers (s : State) (x : List Instr) : (s.setPending x).carriers = s.carriers := rfl
@[simp] theorem State.setPending_probe (s : State) (x : List Instr) : (s.setPending x).probe = s.probe := rfl
@[simp] theorem State.setPending_link (s : State) (x : List Instr) : (s.setPending x).link = s.link := rfl
@[simp] theorem State.setPending_mgmt (s : State) (x : List Instr) : (s.setPending x).mgmt = s.mgmt := rfl
@[simp] theorem State.setPending_firstEdge (s : State) (x : List Instr) : (s.setPending x).firstEdge = s.firstEdge := rfl
@[simp] theorem State.setPending_pending (s : State) (x : List Instr) : (s.setPending x).pending = x := rfl
@[simp] theorem State.setPending_setPending (s : State) (x y : List Instr) : (s.setPending x).setPending y = s.setPending y := rfl
@[simp] theorem State.setPending_self (s : State) : s.setPending s.pending = s := rfl
@[simp] theorem State.setPending_car (s : State) (x : List Instr) (c : Carrier) : (s.setPending x).car c = s.car c := rfl
@[simp] theorem State.setPending_par (s : State) (x : List Instr) (c : Carrier) : (s.setPending x).par c = s.par c := rfl
@[simp] theorem State.setPending_now (s : State) (x : List Instr) : (s.setPending x).now = s.now := rfl

/-! ### State.setCar and State.modCar -/

/-- A carrier of a state is read by `car`. -/
@[simp] theorem State.carriers_get (s : State) (c : Carrier) : s.carriers.get c = s.car c := rfl

@[simp] theorem State.setCar_tracker (s : State) (c : Carrier) (k : CarrierState) : (s.setCar c k).tracker = s.tracker := rfl
@[simp] theorem State.modCar_tracker (s : State) (c : Carrier) (f : CarrierState → CarrierState) :
    (s.modCar c f).tracker = s.tracker := rfl
@[simp] theorem State.setCar_align (s : State) (c : Carrier) (k : CarrierState) : (s.setCar c k).align = s.align := rfl
@[simp] theorem State.modCar_align (s : State) (c : Carrier) (f : CarrierState → CarrierState) :
    (s.modCar c f).align = s.align := rfl
@[simp] theorem State.setCar_batches (s : State) (c : Carrier) (k : CarrierState) : (s.setCar c k).batches = s.batches := rfl
@[simp] theorem State.modCar_batches (s : State) (c : Carrier) (f : CarrierState → CarrierState) :
    (s.modCar c f).batches = s.batches := rfl
@[simp] theorem State.setCar_store (s : State) (c : Carrier) (k : CarrierState) : (s.setCar c k).store = s.store := rfl
@[simp] theorem State.modCar_store (s : State) (c : Carrier) (f : CarrierState → CarrierState) :
    (s.modCar c f).store = s.store := rfl
theorem State.setCar_carriers (s : State) (c : Carrier) (k : CarrierState) :
    (s.setCar c k).carriers = s.carriers.set c k := rfl
theorem State.modCar_carriers (s : State) (c : Carrier) (f : CarrierState → CarrierState) :
    (s.modCar c f).carriers = s.carriers.set c (f (s.car c)) := rfl
@[simp] theorem State.setCar_probe (s : State) (c : Carrier) (k : CarrierState) : (s.setCar c k).probe = s.probe := rfl
@[simp] theorem State.modCar_probe (s : State) (c : Carrier) (f : CarrierState → CarrierState) :
    (s.modCar c f).probe = s.probe := rfl
@[simp] theorem State.setCar_link (s : State) (c : Carrier) (k : CarrierState) : (s.setCar c k).link = s.link := rfl
@[simp] theorem State.modCar_link (s : State) (c : Carrier) (f : CarrierState → CarrierState) :
    (s.modCar c f).link = s.link := rfl
@[simp] theorem State.setCar_mgmt (s : State) (c : Carrier) (k : CarrierState) : (s.setCar c k).mgmt = s.mgmt := rfl
@[simp] theorem State.modCar_mgmt (s : State) (c : Carrier) (f : CarrierState → CarrierState) :
    (s.modCar c f).mgmt = s.mgmt := rfl
@[simp] theorem State.setCar_firstEdge (s : State) (c : Carrier) (k : CarrierState) : (s.setCar c k).firstEdge = s.firstEdge := rfl
@[simp] theorem State.modCar_firstEdge (s : State) (c : Carrier) (f : CarrierState → CarrierState) :
    (s.modCar c f).firstEdge = s.firstEdge := rfl
@[simp] theorem State.setCar_pending (s : State) (c : Carrier) (k : CarrierState) : (s.setCar c k).pending = s.pending := rfl
@[simp] theorem State.modCar_pending (s : State) (c : Carrier) (f : CarrierState → CarrierState) :
    (s.modCar c f).pending = s.pending := rfl
@[simp] theorem State.setCar_par (s : State) (c d : Carrier) (k : CarrierState) : (s.setCar c k).par d = s.par d := rfl
@[simp] theorem State.modCar_par (s : State) (c d : Carrier) (f : CarrierState → CarrierState) :
    (s.modCar c f).par d = s.par d := rfl
@[simp] theorem State.setCar_now (s : State) (c : Carrier) (k : CarrierState) : (s.setCar c k).now = s.now := rfl
@[simp] theorem State.modCar_now (s : State) (c : Carrier) (f : CarrierState → CarrierState) :
    (s.modCar c f).now = s.now := rfl
@[simp] theorem State.setCar_car_same (s : State) (c : Carrier) (k : CarrierState) : (s.setCar c k).car c = k :=
  Quad.get_set_same _ _ _
theorem State.setCar_car_other (s : State) {c d : Carrier} (k : CarrierState) (h : d ≠ c) : (s.setCar c k).car d = s.car d :=
  Quad.get_set_other _ _ h
theorem State.setCar_car (s : State) (c d : Carrier) (k : CarrierState) :
    (s.setCar c k).car d = if d = c then k else s.car d := Quad.get_set _ _ _ _
@[simp] theorem State.modCar_car_same (s : State) (c : Carrier) (f : CarrierState → CarrierState) :
    (s.modCar c f).car c = f (s.car c) := Quad.get_set_same _ _ _
theorem State.modCar_car_other (s : State) {c d : Carrier} (f : CarrierState → CarrierState) (h : d ≠ c) :
    (s.modCar c f).car d = s.car d := Quad.get_set_other _ _ h
theorem State.modCar_car (s : State) (c d : Carrier) (f : CarrierState → CarrierState) :
    (s.modCar c f).car d = if d = c then f (s.car c) else s.car d := Quad.get_set _ _ _ _
@[simp] theorem State.setCar_setCar (s : State) (c : Carrier) (k m : CarrierState) :
    (s.setCar c k).setCar c m = s.setCar c m := by simp [State.setCar]
@[simp] theorem State.setCar_self (s : State) (c : Carrier) : s.setCar c (s.car c) = s := by
  rw [State.setCar, State.car, Quad.set_get, State.setCarriers_self]

/-! ### Reset -/

@[simp] theorem State.reset_pending : State.reset.pending = [] := rfl
@[simp] theorem State.reset_batches : State.reset.batches = [] := rfl
@[simp] theorem State.reset_store : State.reset.store = Store.reset := rfl
@[simp] theorem State.reset_car (c : Carrier) : State.reset.car c = CarrierState.reset false false := Quad.get_all _ _

end Sys2Proof.Machine
end

