-- ==== Sys2Proof/Laws/Store.lean ====
section
/-! SUPPORT. The Symbol Store (R80): read after write, the lowest-numbered FREE block, and the canonical form, which every
store operation keeps. -/

namespace Sys2Proof.Machine

/-! ### Read after write -/

/-- In a canonical list the entries after the first lie above it. -/
theorem cellsWf_cons {m : Nat} {x : StoreBlock} {rest : List (Nat × StoreBlock)} :
    cellsWf ((m, x) :: rest) = true ↔
      m < Config.storeSize ∧ x ≠ blankBlock ∧ (∀ y ∈ rest, m < y.1) ∧ cellsWf rest = true := by
  simp [cellsWf, and_assoc]

/-- A number below every entry reads blank. -/
theorem cellsRead_below {cs : List (Nat × StoreBlock)} {n : Nat} (h : ∀ y ∈ cs, n < y.1) : cellsRead cs n = blankBlock := by
  induction cs with
  | nil => rfl
  | cons y ys ih =>
    obtain ⟨m, x⟩ := y
    have hm : n < m := h (m, x) (by simp)
    simp only [cellsRead, if_neg (Nat.ne_of_gt hm)]
    exact ih fun z hz => h z (List.mem_cons_of_mem _ hz)

/-- A written block reads back, and every other block reads as before (R80). -/
theorem cellsRead_cellsWrite {cs : List (Nat × StoreBlock)} (hw : cellsWf cs = true) (n k : Nat) (b : StoreBlock) :
    cellsRead (cellsWrite cs n b) k = if k = n then b else cellsRead cs k := by
  induction cs with
  | nil =>
    by_cases hb : b = blankBlock
    · by_cases hk : k = n <;> simp [cellsWrite, cellsRead, hb, hk]
    · by_cases hk : n = k
      · subst hk; simp [cellsWrite, cellsRead, hb]
      · have hk' : ¬ k = n := fun e => hk e.symm
        simp [cellsWrite, cellsRead, hb, hk, hk']
  | cons y ys ih =>
    obtain ⟨m, x⟩ := y
    obtain ⟨-, hx, hlt, hys⟩ := cellsWf_cons.1 hw
    have ih := ih hys
    by_cases h1 : n < m
    · have hbelow : cellsRead ((m, x) :: ys) n = blankBlock :=
        cellsRead_below (by
          intro z hz
          rcases List.mem_cons.1 hz with rfl | hz
          · exact h1
          · exact Nat.lt_trans h1 (hlt z hz))
      by_cases hb : b = blankBlock
      · simp only [cellsWrite, if_pos h1, if_pos hb]
        by_cases hk : k = n
        · subst hk; rw [hbelow, if_pos rfl, hb]
        · rw [if_neg hk]
      · simp only [cellsWrite, if_pos h1, if_neg hb]
        by_cases hk : n = k
        · subst hk; simp [cellsRead]
        · rw [if_neg (fun e => hk e.symm)]; simp only [cellsRead, if_neg hk]
    · by_cases h2 : n = m
      · subst h2
        by_cases hb : b = blankBlock
        · simp only [cellsWrite, if_neg h1, if_pos hb, if_true]
          by_cases hk : k = n
          · subst hk; rw [if_pos rfl, hb]; exact cellsRead_below hlt
          · rw [if_neg hk]; simp only [cellsRead, if_neg (fun e => hk (Eq.symm e))]
        · simp only [cellsWrite, if_neg h1, if_neg hb, if_true]
          by_cases hk : n = k
          · subst hk; simp [cellsRead]
          · rw [if_neg (fun e => hk (Eq.symm e))]; simp only [cellsRead, if_neg hk]
      · simp only [cellsWrite, if_neg h1, if_neg h2]
        by_cases hk : m = k
        · subst hk
          rw [if_neg (fun e => h2 (Eq.symm e))]; simp [cellsRead]
        · simp only [cellsRead, if_neg hk]; exact ih

/-- A write puts no number but its own into the list. -/
theorem mem_cellsWrite {cs : List (Nat × StoreBlock)} {n : Nat} {b : StoreBlock} {y : Nat × StoreBlock}
    (h : y ∈ cellsWrite cs n b) : y.1 = n ∨ y ∈ cs := by
  induction cs with
  | nil =>
    simp only [cellsWrite] at h
    split at h
    · simp at h
    · simp at h; exact .inl (by rw [h])
  | cons z zs ih =>
    obtain ⟨m, x⟩ := z
    simp only [cellsWrite] at h
    split at h
    · split at h
      · exact .inr h
      · rcases List.mem_cons.1 h with rfl | h
        · exact .inl rfl
        · exact .inr h
    · split at h
      · split at h
        · exact .inr (List.mem_cons_of_mem _ h)
        · rcases List.mem_cons.1 h with rfl | h
          · exact .inl rfl
          · exact .inr (List.mem_cons_of_mem _ h)
      · rcases List.mem_cons.1 h with rfl | h
        · exact .inr (by simp)
        · rcases ih h with h | h
          · exact .inl h
          · exact .inr (List.mem_cons_of_mem _ h)

/-- A write keeps the canonical form. -/
theorem cellsWf_cellsWrite {cs : List (Nat × StoreBlock)} (hw : cellsWf cs = true) {n : Nat} (hn : n < Config.storeSize)
    (b : StoreBlock) : cellsWf (cellsWrite cs n b) = true := by
  induction cs with
  | nil =>
    by_cases hb : b = blankBlock
    · simp [cellsWrite, hb, cellsWf]
    · simp [cellsWrite, hb, cellsWf, hn]
  | cons y ys ih =>
    obtain ⟨m, x⟩ := y
    obtain ⟨hm, hx, hlt, hys⟩ := cellsWf_cons.1 hw
    simp only [cellsWrite]
    split
    · next h1 =>
      split
      · exact hw
      · next hb =>
        refine cellsWf_cons.2 ⟨hn, hb, ?_, hw⟩
        intro z hz
        rcases List.mem_cons.1 hz with rfl | hz
        · exact h1
        · exact Nat.lt_trans h1 (hlt z hz)
    · split
      · next h1 h2 =>
        subst h2
        split
        · exact hys
        · next hb => exact cellsWf_cons.2 ⟨hn, hb, hlt, hys⟩
      · next h1 h2 =>
        refine cellsWf_cons.2 ⟨hm, hx, ?_, ih hys⟩
        intro z hz
        rcases mem_cellsWrite hz with h | h
        · omega
        · exact hlt z h

/-! ### The lowest-numbered FREE block -/

/-- The number found is FREE, and no FREE block lies between the start and it (R80). -/
theorem lowestFree_spec {cs : List (Nat × StoreBlock)} (hw : cellsWf cs = true) {n : Nat} (hn : ∀ y ∈ cs, n ≤ y.1) :
    match lowestFree cs n with
    | some k => n ≤ k ∧ k < Config.storeSize ∧ (cellsRead cs k).tag = .free ∧
        ∀ j, n ≤ j → j < k → (cellsRead cs j).tag ≠ .free
    | none => ∀ j, n ≤ j → j < Config.storeSize → (cellsRead cs j).tag ≠ .free := by
  induction cs generalizing n with
  | nil =>
    simp only [lowestFree]
    split
    · next k h =>
      split at h
      · next hlt =>
        obtain rfl := Option.some.inj h
        exact ⟨Nat.le_refl _, hlt, rfl, fun j h1 h2 => absurd h2 (Nat.not_lt.2 h1)⟩
      · simp at h
    · next h =>
      split at h
      · simp at h
      · intro j h1 h2; omega
  | cons y ys ih =>
    obtain ⟨m, x⟩ := y
    obtain ⟨hm, hx, hlt, hys⟩ := cellsWf_cons.1 hw
    have hnm : n ≤ m := hn (m, x) (by simp)
    by_cases h1 : n < m
    · have h2 : n < Config.storeSize := Nat.lt_trans h1 hm
      simp only [lowestFree, if_pos h1, if_pos h2]
      refine ⟨Nat.le_refl _, h2, ?_, fun j h3 h4 => absurd h4 (Nat.not_lt.2 h3)⟩
      rw [cellsRead_below]
      · rfl
      · intro z hz
        rcases List.mem_cons.1 hz with rfl | hz
        · exact h1
        · exact Nat.lt_trans h1 (hlt z hz)
    · obtain rfl : n = m := Nat.le_antisymm hnm (Nat.not_lt.1 h1)
      by_cases hf : x.tag = .free
      · simp only [lowestFree, if_neg h1, if_pos hf]
        exact ⟨Nat.le_refl _, hm, by simp [cellsRead, hf], fun j h3 h4 => absurd h4 (Nat.not_lt.2 h3)⟩
      · simp only [lowestFree, if_neg h1, if_neg hf]
        have := ih hys (n := n + 1) fun z hz => hlt z hz
        revert this
        split
        · next k hk =>
          rintro ⟨h3, h4, h5, h6⟩
          refine ⟨by omega, h4, ?_, ?_⟩
          · simp only [cellsRead, if_neg (show ¬ n = k by omega)]; exact h5
          · intro j h7 h8
            by_cases hj : n = j
            · subst hj; simpa [cellsRead] using hf
            · simp only [cellsRead, if_neg hj]; exact h6 j (by omega) h8
        · intro h6 j h7 h8
          by_cases hj : n = j
          · subst hj; simpa [cellsRead] using hf
          · simp only [cellsRead, if_neg hj]; exact h6 j (by omega) h8

/-! ### The operations on the store -/

/-- A write to a block below 2048 reads back; every other block reads as before. -/
theorem readBlock_writeBlock {s : State} (hw : s.store.wf = true) {n : Nat} (hn : n < Config.storeSize) (k : Nat)
    (b : StoreBlock) : readBlock k (writeBlock n b s) = if k = n then b else readBlock k s := by
  simp only [writeBlock, if_pos hn, readBlock, State.setStore_store]
  exact cellsRead_cellsWrite hw n k b

/-- Every store operation keeps the canonical form. -/
theorem writeBlock_wf {s : State} (hw : s.store.wf = true) (n : Nat) (b : StoreBlock) : (writeBlock n b s).store.wf = true := by
  unfold writeBlock
  split
  · next h => exact cellsWf_cellsWrite hw h b
  · exact hw

theorem writeTag_wf {s : State} (hw : s.store.wf = true) (n : Nat) (t : BlockTag) : (writeTag n t s).store.wf = true :=
  writeBlock_wf hw n _

theorem evalStoreLow_wf {s : State} (hw : s.store.wf = true) : (evalStoreLow s).store.wf = true := hw

theorem allocate_wf {s : State} (hw : s.store.wf = true) (n : Nat) (id : BatchId) (index : Nat) (codes : BitVec 80) :
    (allocate n id index codes s).store.wf = true := writeBlock_wf hw n _

theorem freeBlock_wf {s : State} (hw : s.store.wf = true) (n : Nat) : (freeBlock n s).store.wf = true := writeTag_wf hw n _

theorem freeBlocks_wf {s : State} (hw : s.store.wf = true) (bs : List (Option Nat)) : (freeBlocks bs s).store.wf = true := by
  induction bs generalizing s with
  | nil => exact hw
  | cons x xs ih =>
    cases x with
    | none => exact ih hw
    | some n => exact ih (freeBlock_wf hw n)

/-- The store after reset is in canonical form. -/
theorem reset_wf : State.reset.store.wf = true := rfl

/-- A number at or above 2048 reads blank in a canonical store. -/
theorem readBlock_beyond {s : State} (hw : s.store.wf = true) {n : Nat} (hn : Config.storeSize ≤ n) :
    readBlock n s = blankBlock := by
  unfold readBlock
  have : ∀ cs : List (Nat × StoreBlock), cellsWf cs = true → cellsRead cs n = blankBlock := by
    intro cs hc
    induction cs with
    | nil => rfl
    | cons y ys ih =>
      obtain ⟨m, x⟩ := y
      obtain ⟨hm, -, -, hys⟩ := cellsWf_cons.1 hc
      simp only [cellsRead, if_neg (show ¬ m = n by omega)]
      exact ih hys
  exact this _ hw

/-- What a freed block reads: FREE with its codes kept; every other block reads as before (R80). -/
theorem readBlock_freeBlock {s : State} (hw : s.store.wf = true) {n : Nat} (hn : n < Config.storeSize) (k : Nat) :
    readBlock k (freeBlock n s) = if k = n then { readBlock n s with tag := .free } else readBlock k s :=
  readBlock_writeBlock hw hn k _

/-- What an allocated block reads: HELD with the codes; every other block reads as before (R70, R80). -/
theorem readBlock_allocate {s : State} (hw : s.store.wf = true) {n : Nat} (hn : n < Config.storeSize) (k : Nat) (id : BatchId)
    (index : Nat) (codes : BitVec 80) :
    readBlock k (allocate n id index codes s) = if k = n then { tag := .held id index, codes := codes } else readBlock k s :=
  readBlock_writeBlock hw hn k _

/-- The tags after a list of blocks is freed: FREE for each of the list, the rest as before (R60, R80). -/
theorem tag_freeBlocks {s : State} (hw : s.store.wf = true) {bs : List (Option Nat)}
    (hb : ∀ n, some n ∈ bs → n < Config.storeSize) (k : Nat) :
    (readBlock k (freeBlocks bs s)).tag = if some k ∈ bs then .free else (readBlock k s).tag := by
  induction bs generalizing s with
  | nil => simp [freeBlocks]
  | cons x xs ih =>
    have hxs : ∀ n, some n ∈ xs → n < Config.storeSize := fun n h => hb n (List.mem_cons_of_mem _ h)
    cases x with
    | none => simpa [freeBlocks] using ih hw hxs
    | some n =>
      have hn : n < Config.storeSize := hb n (by simp)
      simp only [freeBlocks]
      rw [ih (freeBlock_wf hw n) hxs, readBlock_freeBlock hw hn]
      by_cases h1 : some k ∈ xs
      · simp [h1]
      · by_cases h2 : k = n
        · simp [h2]
        · simp [h1, h2]

/-- The free count after a list of blocks is freed (R81). -/
theorem freeCount_freeBlocks (bs : List (Option Nat)) (s : State) :
    (freeBlocks bs s).store.freeCount = s.store.freeCount + (bs.filterMap fun x => x).length := by
  induction bs generalizing s with
  | nil => rfl
  | cons x xs ih =>
    cases x with
    | none => simpa [freeBlocks] using ih s
    | some n =>
      have : (freeBlock n s).store.freeCount = s.store.freeCount + 1 := by
        unfold freeBlock writeTag writeBlock evalStoreLow
        split <;> rfl
      have hl : ((some n :: xs).filterMap fun x => x).length = (xs.filterMap fun x => x).length + 1 := by simp
      simp only [freeBlocks, ih, this, hl]
      omega

end Sys2Proof.Machine
end

