-- ==== Sys2Proof/Laws/Ops.lean ====
section
/-! SUPPORT. The shared operations: for each what it leaves unchanged (one `@[simp]` lemma), and what it can do. -/

namespace Sys2Proof.Machine

/-! ### Alarms and counters: what they leave -/

@[simp] theorem latch_keeps (a : Alarm) (s : State) :
    (latch a s).tracker = s.tracker ∧ (latch a s).align = s.align ∧ (latch a s).batches = s.batches ∧ (latch a s).store = s.store ∧
    (latch a s).carriers = s.carriers ∧ (latch a s).probe = s.probe ∧ (latch a s).link = s.link ∧ (latch a s).firstEdge = s.firstEdge ∧
    (latch a s).pending = s.pending ∧ (latch a s).mgmt.service = s.mgmt.service ∧ (latch a s).mgmt.params = s.mgmt.params ∧ (latch a s).mgmt.cause = s.mgmt.cause ∧
    (latch a s).mgmt.counters = s.mgmt.counters ∧ (∀ d, (latch a s).par d = s.par d) ∧ (latch a s).now = s.now ∧ (∀ d, (latch a s).car d = s.car d) := by simp [latch, State.par]

@[simp] theorem latchIf_keeps (b : Bool) (a : Alarm) (s : State) :
    (latchIf b a s).tracker = s.tracker ∧ (latchIf b a s).align = s.align ∧ (latchIf b a s).batches = s.batches ∧ (latchIf b a s).store = s.store ∧
    (latchIf b a s).carriers = s.carriers ∧ (latchIf b a s).probe = s.probe ∧ (latchIf b a s).link = s.link ∧ (latchIf b a s).firstEdge = s.firstEdge ∧
    (latchIf b a s).pending = s.pending ∧ (latchIf b a s).mgmt.service = s.mgmt.service ∧ (latchIf b a s).mgmt.params = s.mgmt.params ∧ (latchIf b a s).mgmt.cause = s.mgmt.cause ∧
    (latchIf b a s).mgmt.counters = s.mgmt.counters ∧ (∀ d, (latchIf b a s).par d = s.par d) ∧ (latchIf b a s).now = s.now ∧ (∀ d, (latchIf b a s).car d = s.car d) := by cases b <;> simp [latchIf]

@[simp] theorem clearAlarmSet_keeps (x : BitVec 32) (s : State) :
    (clearAlarmSet x s).tracker = s.tracker ∧ (clearAlarmSet x s).align = s.align ∧ (clearAlarmSet x s).batches = s.batches ∧ (clearAlarmSet x s).store = s.store ∧
    (clearAlarmSet x s).carriers = s.carriers ∧ (clearAlarmSet x s).probe = s.probe ∧ (clearAlarmSet x s).link = s.link ∧ (clearAlarmSet x s).firstEdge = s.firstEdge ∧
    (clearAlarmSet x s).pending = s.pending ∧ (clearAlarmSet x s).mgmt.service = s.mgmt.service ∧ (clearAlarmSet x s).mgmt.params = s.mgmt.params ∧ (clearAlarmSet x s).mgmt.cause = s.mgmt.cause ∧
    (clearAlarmSet x s).mgmt.counters = s.mgmt.counters ∧ (∀ d, (clearAlarmSet x s).par d = s.par d) ∧ (clearAlarmSet x s).now = s.now ∧ (∀ d, (clearAlarmSet x s).car d = s.car d) := by simp [clearAlarmSet, State.par]

@[simp] theorem latchGuardReal_keeps (c : Carrier) (s : State) :
    (latchGuardReal c s).tracker = s.tracker ∧ (latchGuardReal c s).align = s.align ∧ (latchGuardReal c s).batches = s.batches ∧ (latchGuardReal c s).store = s.store ∧
    (latchGuardReal c s).probe = s.probe ∧ (latchGuardReal c s).link = s.link ∧ (latchGuardReal c s).firstEdge = s.firstEdge ∧ (latchGuardReal c s).pending = s.pending ∧
    (latchGuardReal c s).mgmt.service = s.mgmt.service ∧ (latchGuardReal c s).mgmt.params = s.mgmt.params ∧ (latchGuardReal c s).mgmt.cause = s.mgmt.cause ∧ (latchGuardReal c s).mgmt.counters = s.mgmt.counters ∧
    (∀ d, (latchGuardReal c s).par d = s.par d) ∧ (latchGuardReal c s).now = s.now ∧ (∀ d, d ≠ c → (latchGuardReal c s).car d = s.car d) := by simp +contextual [latchGuardReal, State.modCar_car_other]

@[simp] theorem latchGuardTest_keeps (c : Carrier) (s : State) :
    (latchGuardTest c s).tracker = s.tracker ∧ (latchGuardTest c s).align = s.align ∧ (latchGuardTest c s).batches = s.batches ∧ (latchGuardTest c s).store = s.store ∧
    (latchGuardTest c s).probe = s.probe ∧ (latchGuardTest c s).link = s.link ∧ (latchGuardTest c s).firstEdge = s.firstEdge ∧ (latchGuardTest c s).pending = s.pending ∧
    (latchGuardTest c s).mgmt.service = s.mgmt.service ∧ (latchGuardTest c s).mgmt.params = s.mgmt.params ∧ (latchGuardTest c s).mgmt.cause = s.mgmt.cause ∧ (latchGuardTest c s).mgmt.counters = s.mgmt.counters ∧
    (∀ d, (latchGuardTest c s).par d = s.par d) ∧ (latchGuardTest c s).now = s.now ∧ (∀ d, d ≠ c → (latchGuardTest c s).car d = s.car d) := by simp +contextual [latchGuardTest, State.modCar_car_other]

@[simp] theorem clearMarkers_keeps (x : BitVec 32) (s : State) :
    (clearMarkers x s).tracker = s.tracker ∧ (clearMarkers x s).align = s.align ∧ (clearMarkers x s).batches = s.batches ∧ (clearMarkers x s).store = s.store ∧
    (clearMarkers x s).probe = s.probe ∧ (clearMarkers x s).link = s.link ∧ (clearMarkers x s).mgmt = s.mgmt ∧ (clearMarkers x s).firstEdge = s.firstEdge ∧
    (clearMarkers x s).pending = s.pending ∧ (∀ d, (clearMarkers x s).par d = s.par d) ∧ (clearMarkers x s).now = s.now := by simp [clearMarkers]

@[simp] theorem modPart_keeps (f : PartCounters → PartCounters) (s : State) :
    (modPart f s).tracker = s.tracker ∧ (modPart f s).align = s.align ∧ (modPart f s).batches = s.batches ∧ (modPart f s).store = s.store ∧
    (modPart f s).carriers = s.carriers ∧ (modPart f s).probe = s.probe ∧ (modPart f s).link = s.link ∧ (modPart f s).firstEdge = s.firstEdge ∧
    (modPart f s).pending = s.pending ∧ (modPart f s).mgmt.service = s.mgmt.service ∧ (modPart f s).mgmt.params = s.mgmt.params ∧ (modPart f s).mgmt.cause = s.mgmt.cause ∧
    (modPart f s).mgmt.alarms = s.mgmt.alarms ∧ (∀ d, (modPart f s).par d = s.par d) ∧ (modPart f s).now = s.now ∧ (∀ d, (modPart f s).car d = s.car d) := by simp [modPart, State.par]

@[simp] theorem modCounters_keeps (c : Carrier) (f : CarrierCounters → CarrierCounters) (s : State) :
    (modCounters c f s).tracker = s.tracker ∧ (modCounters c f s).align = s.align ∧ (modCounters c f s).batches = s.batches ∧ (modCounters c f s).store = s.store ∧
    (modCounters c f s).probe = s.probe ∧ (modCounters c f s).link = s.link ∧ (modCounters c f s).mgmt = s.mgmt ∧ (modCounters c f s).firstEdge = s.firstEdge ∧
    (modCounters c f s).pending = s.pending ∧ (∀ d, (modCounters c f s).par d = s.par d) ∧ (modCounters c f s).now = s.now ∧ (∀ d, d ≠ c → (modCounters c f s).car d = s.car d) := by simp +contextual [modCounters, State.modCar_car_other]

@[simp] theorem countBadFrame_keeps (s : State) :
    (countBadFrame s).tracker = s.tracker ∧ (countBadFrame s).align = s.align ∧ (countBadFrame s).batches = s.batches ∧ (countBadFrame s).store = s.store ∧
    (countBadFrame s).carriers = s.carriers ∧ (countBadFrame s).probe = s.probe ∧ (countBadFrame s).link = s.link ∧ (countBadFrame s).firstEdge = s.firstEdge ∧
    (countBadFrame s).pending = s.pending ∧ (countBadFrame s).mgmt.service = s.mgmt.service ∧ (countBadFrame s).mgmt.params = s.mgmt.params ∧ (countBadFrame s).mgmt.cause = s.mgmt.cause ∧
    (countBadFrame s).mgmt.alarms = s.mgmt.alarms ∧ (∀ d, (countBadFrame s).par d = s.par d) ∧ (countBadFrame s).now = s.now ∧ (∀ d, (countBadFrame s).car d = s.car d) := by simp [countBadFrame]

@[simp] theorem countOwnDrop_keeps (s : State) :
    (countOwnDrop s).tracker = s.tracker ∧ (countOwnDrop s).align = s.align ∧ (countOwnDrop s).batches = s.batches ∧ (countOwnDrop s).store = s.store ∧
    (countOwnDrop s).carriers = s.carriers ∧ (countOwnDrop s).probe = s.probe ∧ (countOwnDrop s).link = s.link ∧ (countOwnDrop s).firstEdge = s.firstEdge ∧
    (countOwnDrop s).pending = s.pending ∧ (countOwnDrop s).mgmt.service = s.mgmt.service ∧ (countOwnDrop s).mgmt.params = s.mgmt.params ∧ (countOwnDrop s).mgmt.cause = s.mgmt.cause ∧
    (countOwnDrop s).mgmt.alarms = s.mgmt.alarms ∧ (∀ d, (countOwnDrop s).par d = s.par d) ∧ (countOwnDrop s).now = s.now ∧ (∀ d, (countOwnDrop s).car d = s.car d) := by simp [countOwnDrop]

@[simp] theorem countRelayDrop_keeps (s : State) :
    (countRelayDrop s).tracker = s.tracker ∧ (countRelayDrop s).align = s.align ∧ (countRelayDrop s).batches = s.batches ∧ (countRelayDrop s).store = s.store ∧
    (countRelayDrop s).carriers = s.carriers ∧ (countRelayDrop s).probe = s.probe ∧ (countRelayDrop s).link = s.link ∧ (countRelayDrop s).firstEdge = s.firstEdge ∧
    (countRelayDrop s).pending = s.pending ∧ (countRelayDrop s).mgmt.service = s.mgmt.service ∧ (countRelayDrop s).mgmt.params = s.mgmt.params ∧ (countRelayDrop s).mgmt.cause = s.mgmt.cause ∧
    (countRelayDrop s).mgmt.alarms = s.mgmt.alarms ∧ (∀ d, (countRelayDrop s).par d = s.par d) ∧ (countRelayDrop s).now = s.now ∧ (∀ d, (countRelayDrop s).car d = s.car d) := by simp [countRelayDrop]

@[simp] theorem countMarkRejected_keeps (s : State) :
    (countMarkRejected s).tracker = s.tracker ∧ (countMarkRejected s).align = s.align ∧ (countMarkRejected s).batches = s.batches ∧ (countMarkRejected s).store = s.store ∧
    (countMarkRejected s).carriers = s.carriers ∧ (countMarkRejected s).probe = s.probe ∧ (countMarkRejected s).link = s.link ∧ (countMarkRejected s).firstEdge = s.firstEdge ∧
    (countMarkRejected s).pending = s.pending ∧ (countMarkRejected s).mgmt.service = s.mgmt.service ∧ (countMarkRejected s).mgmt.params = s.mgmt.params ∧ (countMarkRejected s).mgmt.cause = s.mgmt.cause ∧
    (countMarkRejected s).mgmt.alarms = s.mgmt.alarms ∧ (∀ d, (countMarkRejected s).par d = s.par d) ∧ (countMarkRejected s).now = s.now ∧ (∀ d, (countMarkRejected s).car d = s.car d) := by simp [countMarkRejected]

@[simp] theorem countStrayPulse_keeps (s : State) :
    (countStrayPulse s).tracker = s.tracker ∧ (countStrayPulse s).align = s.align ∧ (countStrayPulse s).batches = s.batches ∧ (countStrayPulse s).store = s.store ∧
    (countStrayPulse s).carriers = s.carriers ∧ (countStrayPulse s).probe = s.probe ∧ (countStrayPulse s).link = s.link ∧ (countStrayPulse s).firstEdge = s.firstEdge ∧
    (countStrayPulse s).pending = s.pending ∧ (countStrayPulse s).mgmt.service = s.mgmt.service ∧ (countStrayPulse s).mgmt.params = s.mgmt.params ∧ (countStrayPulse s).mgmt.cause = s.mgmt.cause ∧
    (countStrayPulse s).mgmt.alarms = s.mgmt.alarms ∧ (∀ d, (countStrayPulse s).par d = s.par d) ∧ (countStrayPulse s).now = s.now ∧ (∀ d, (countStrayPulse s).car d = s.car d) := by simp [countStrayPulse]

@[simp] theorem countRequest_keeps (s : State) :
    (countRequest s).tracker = s.tracker ∧ (countRequest s).align = s.align ∧ (countRequest s).batches = s.batches ∧ (countRequest s).store = s.store ∧
    (countRequest s).carriers = s.carriers ∧ (countRequest s).probe = s.probe ∧ (countRequest s).link = s.link ∧ (countRequest s).firstEdge = s.firstEdge ∧
    (countRequest s).pending = s.pending ∧ (countRequest s).mgmt.service = s.mgmt.service ∧ (countRequest s).mgmt.params = s.mgmt.params ∧ (countRequest s).mgmt.cause = s.mgmt.cause ∧
    (countRequest s).mgmt.alarms = s.mgmt.alarms ∧ (∀ d, (countRequest s).par d = s.par d) ∧ (countRequest s).now = s.now ∧ (∀ d, (countRequest s).car d = s.car d) := by simp [countRequest]

@[simp] theorem countTaken_keeps (k : TrafficKind) (s : State) :
    (countTaken k s).tracker = s.tracker ∧ (countTaken k s).align = s.align ∧ (countTaken k s).batches = s.batches ∧ (countTaken k s).store = s.store ∧
    (countTaken k s).carriers = s.carriers ∧ (countTaken k s).probe = s.probe ∧ (countTaken k s).link = s.link ∧ (countTaken k s).firstEdge = s.firstEdge ∧
    (countTaken k s).pending = s.pending ∧ (countTaken k s).mgmt.service = s.mgmt.service ∧ (countTaken k s).mgmt.params = s.mgmt.params ∧ (countTaken k s).mgmt.cause = s.mgmt.cause ∧
    (countTaken k s).mgmt.alarms = s.mgmt.alarms ∧ (∀ d, (countTaken k s).par d = s.par d) ∧ (countTaken k s).now = s.now ∧ (∀ d, (countTaken k s).car d = s.car d) := by simp [countTaken]

@[simp] theorem countUnmatched_keeps (k : TrafficKind) (s : State) :
    (countUnmatched k s).tracker = s.tracker ∧ (countUnmatched k s).align = s.align ∧ (countUnmatched k s).batches = s.batches ∧ (countUnmatched k s).store = s.store ∧
    (countUnmatched k s).carriers = s.carriers ∧ (countUnmatched k s).probe = s.probe ∧ (countUnmatched k s).link = s.link ∧ (countUnmatched k s).firstEdge = s.firstEdge ∧
    (countUnmatched k s).pending = s.pending ∧ (countUnmatched k s).mgmt.service = s.mgmt.service ∧ (countUnmatched k s).mgmt.params = s.mgmt.params ∧ (countUnmatched k s).mgmt.cause = s.mgmt.cause ∧
    (countUnmatched k s).mgmt.alarms = s.mgmt.alarms ∧ (∀ d, (countUnmatched k s).par d = s.par d) ∧ (countUnmatched k s).now = s.now ∧ (∀ d, (countUnmatched k s).car d = s.car d) := by simp [countUnmatched]

@[simp] theorem countRefused_keeps (c : Carrier) (r : RefuseReason) (s : State) :
    (countRefused c r s).tracker = s.tracker ∧ (countRefused c r s).align = s.align ∧ (countRefused c r s).batches = s.batches ∧ (countRefused c r s).store = s.store ∧
    (countRefused c r s).probe = s.probe ∧ (countRefused c r s).link = s.link ∧ (countRefused c r s).mgmt = s.mgmt ∧ (countRefused c r s).firstEdge = s.firstEdge ∧
    (countRefused c r s).pending = s.pending ∧ (∀ d, (countRefused c r s).par d = s.par d) ∧ (countRefused c r s).now = s.now ∧ (∀ d, d ≠ c → (countRefused c r s).car d = s.car d) := by simp +contextual [countRefused]

@[simp] theorem countSent_keeps (c : Carrier) (s : State) :
    (countSent c s).tracker = s.tracker ∧ (countSent c s).align = s.align ∧ (countSent c s).batches = s.batches ∧ (countSent c s).store = s.store ∧
    (countSent c s).probe = s.probe ∧ (countSent c s).link = s.link ∧ (countSent c s).mgmt = s.mgmt ∧ (countSent c s).firstEdge = s.firstEdge ∧
    (countSent c s).pending = s.pending ∧ (∀ d, (countSent c s).par d = s.par d) ∧ (countSent c s).now = s.now ∧ (∀ d, d ≠ c → (countSent c s).car d = s.car d) := by simp +contextual [countSent]

@[simp] theorem countDropped_keeps (c : Carrier) (s : State) :
    (countDropped c s).tracker = s.tracker ∧ (countDropped c s).align = s.align ∧ (countDropped c s).batches = s.batches ∧ (countDropped c s).store = s.store ∧
    (countDropped c s).probe = s.probe ∧ (countDropped c s).link = s.link ∧ (countDropped c s).mgmt = s.mgmt ∧ (countDropped c s).firstEdge = s.firstEdge ∧
    (countDropped c s).pending = s.pending ∧ (∀ d, (countDropped c s).par d = s.par d) ∧ (countDropped c s).now = s.now ∧ (∀ d, d ≠ c → (countDropped c s).car d = s.car d) := by simp +contextual [countDropped]

@[simp] theorem countDiscard_keeps (c : Carrier) (s : State) :
    (countDiscard c s).tracker = s.tracker ∧ (countDiscard c s).align = s.align ∧ (countDiscard c s).batches = s.batches ∧ (countDiscard c s).store = s.store ∧
    (countDiscard c s).probe = s.probe ∧ (countDiscard c s).link = s.link ∧ (countDiscard c s).mgmt = s.mgmt ∧ (countDiscard c s).firstEdge = s.firstEdge ∧
    (countDiscard c s).pending = s.pending ∧ (∀ d, (countDiscard c s).par d = s.par d) ∧ (countDiscard c s).now = s.now ∧ (∀ d, d ≠ c → (countDiscard c s).car d = s.car d) := by simp +contextual [countDiscard]

@[simp] theorem countClampedWord_keeps (c : Carrier) (s : State) :
    (countClampedWord c s).tracker = s.tracker ∧ (countClampedWord c s).align = s.align ∧ (countClampedWord c s).batches = s.batches ∧ (countClampedWord c s).store = s.store ∧
    (countClampedWord c s).probe = s.probe ∧ (countClampedWord c s).link = s.link ∧ (countClampedWord c s).mgmt = s.mgmt ∧ (countClampedWord c s).firstEdge = s.firstEdge ∧
    (countClampedWord c s).pending = s.pending ∧ (∀ d, (countClampedWord c s).par d = s.par d) ∧ (countClampedWord c s).now = s.now ∧ (∀ d, d ≠ c → (countClampedWord c s).car d = s.car d) := by simp +contextual [countClampedWord]

@[simp] theorem countLowMargin_keeps (c : Carrier) (s : State) :
    (countLowMargin c s).tracker = s.tracker ∧ (countLowMargin c s).align = s.align ∧ (countLowMargin c s).batches = s.batches ∧ (countLowMargin c s).store = s.store ∧
    (countLowMargin c s).probe = s.probe ∧ (countLowMargin c s).link = s.link ∧ (countLowMargin c s).mgmt = s.mgmt ∧ (countLowMargin c s).firstEdge = s.firstEdge ∧
    (countLowMargin c s).pending = s.pending ∧ (∀ d, (countLowMargin c s).par d = s.par d) ∧ (countLowMargin c s).now = s.now ∧ (∀ d, d ≠ c → (countLowMargin c s).car d = s.car d) := by simp +contextual [countLowMargin]

@[simp] theorem clearCounters_keeps (s : State) :
    (clearCounters s).tracker = s.tracker ∧ (clearCounters s).align = s.align ∧ (clearCounters s).batches = s.batches ∧ (clearCounters s).store = s.store ∧
    (clearCounters s).probe = s.probe ∧ (clearCounters s).link = s.link ∧ (clearCounters s).firstEdge = s.firstEdge ∧ (clearCounters s).pending = s.pending ∧
    (clearCounters s).mgmt.service = s.mgmt.service ∧ (clearCounters s).mgmt.params = s.mgmt.params ∧ (clearCounters s).mgmt.cause = s.mgmt.cause ∧ (clearCounters s).mgmt.alarms = s.mgmt.alarms ∧
    (∀ d, (clearCounters s).par d = s.par d) ∧ (clearCounters s).now = s.now := by simp [clearCounters]

@[simp] theorem evalStoreLow_keeps (s : State) :
    (evalStoreLow s).tracker = s.tracker ∧ (evalStoreLow s).align = s.align ∧ (evalStoreLow s).batches = s.batches ∧ (evalStoreLow s).carriers = s.carriers ∧
    (evalStoreLow s).probe = s.probe ∧ (evalStoreLow s).link = s.link ∧ (evalStoreLow s).mgmt = s.mgmt ∧ (evalStoreLow s).firstEdge = s.firstEdge ∧
    (evalStoreLow s).pending = s.pending ∧ (∀ d, (evalStoreLow s).par d = s.par d) ∧ (evalStoreLow s).now = s.now ∧ (∀ d, (evalStoreLow s).car d = s.car d) := by simp [evalStoreLow]

/-! ### Store and table: what they leave -/

@[simp] theorem writeBlock_keeps (n : Nat) (b : StoreBlock) (s : State) :
    (writeBlock n b s).tracker = s.tracker ∧ (writeBlock n b s).align = s.align ∧ (writeBlock n b s).batches = s.batches ∧ (writeBlock n b s).carriers = s.carriers ∧
    (writeBlock n b s).probe = s.probe ∧ (writeBlock n b s).link = s.link ∧ (writeBlock n b s).mgmt = s.mgmt ∧ (writeBlock n b s).firstEdge = s.firstEdge ∧
    (writeBlock n b s).pending = s.pending ∧ (∀ d, (writeBlock n b s).par d = s.par d) ∧ (writeBlock n b s).now = s.now ∧ (∀ d, (writeBlock n b s).car d = s.car d) := by unfold writeBlock; split <;> simp

@[simp] theorem writeTag_keeps (n : Nat) (t : BlockTag) (s : State) :
    (writeTag n t s).tracker = s.tracker ∧ (writeTag n t s).align = s.align ∧ (writeTag n t s).batches = s.batches ∧ (writeTag n t s).carriers = s.carriers ∧
    (writeTag n t s).probe = s.probe ∧ (writeTag n t s).link = s.link ∧ (writeTag n t s).mgmt = s.mgmt ∧ (writeTag n t s).firstEdge = s.firstEdge ∧
    (writeTag n t s).pending = s.pending ∧ (∀ d, (writeTag n t s).par d = s.par d) ∧ (writeTag n t s).now = s.now ∧ (∀ d, (writeTag n t s).car d = s.car d) := by simp [writeTag]

@[simp] theorem allocate_keeps (n : Nat) (id : BatchId) (i : Nat) (x : BitVec 80) (s : State) :
    (allocate n id i x s).tracker = s.tracker ∧ (allocate n id i x s).align = s.align ∧ (allocate n id i x s).batches = s.batches ∧ (allocate n id i x s).carriers = s.carriers ∧
    (allocate n id i x s).probe = s.probe ∧ (allocate n id i x s).link = s.link ∧ (allocate n id i x s).mgmt = s.mgmt ∧ (allocate n id i x s).firstEdge = s.firstEdge ∧
    (allocate n id i x s).pending = s.pending ∧ (∀ d, (allocate n id i x s).par d = s.par d) ∧ (allocate n id i x s).now = s.now ∧ (∀ d, (allocate n id i x s).car d = s.car d) := by simp [allocate]

@[simp] theorem freeBlock_keeps (n : Nat) (s : State) :
    (freeBlock n s).tracker = s.tracker ∧ (freeBlock n s).align = s.align ∧ (freeBlock n s).batches = s.batches ∧ (freeBlock n s).carriers = s.carriers ∧
    (freeBlock n s).probe = s.probe ∧ (freeBlock n s).link = s.link ∧ (freeBlock n s).mgmt = s.mgmt ∧ (freeBlock n s).firstEdge = s.firstEdge ∧
    (freeBlock n s).pending = s.pending ∧ (∀ d, (freeBlock n s).par d = s.par d) ∧ (freeBlock n s).now = s.now ∧ (∀ d, (freeBlock n s).car d = s.car d) := by simp [freeBlock]

@[simp] theorem freeBlocks_keeps (bs : List (Option Nat)) (s : State) :
    (freeBlocks bs s).tracker = s.tracker ∧ (freeBlocks bs s).align = s.align ∧ (freeBlocks bs s).batches = s.batches ∧ (freeBlocks bs s).carriers = s.carriers ∧
    (freeBlocks bs s).probe = s.probe ∧ (freeBlocks bs s).link = s.link ∧ (freeBlocks bs s).mgmt = s.mgmt ∧ (freeBlocks bs s).firstEdge = s.firstEdge ∧
    (freeBlocks bs s).pending = s.pending ∧ (∀ d, (freeBlocks bs s).par d = s.par d) ∧ (freeBlocks bs s).now = s.now ∧ (∀ d, (freeBlocks bs s).car d = s.car d) := by
  induction bs generalizing s with
  | nil => simp [freeBlocks]
  | cons x xs ih => cases x <;> simp [freeBlocks, ih]

@[simp] theorem addBatch_keeps (b : Batch) (s : State) :
    (addBatch b s).tracker = s.tracker ∧ (addBatch b s).align = s.align ∧ (addBatch b s).store = s.store ∧ (addBatch b s).carriers = s.carriers ∧
    (addBatch b s).probe = s.probe ∧ (addBatch b s).link = s.link ∧ (addBatch b s).mgmt = s.mgmt ∧ (addBatch b s).firstEdge = s.firstEdge ∧
    (addBatch b s).pending = s.pending ∧ (∀ d, (addBatch b s).par d = s.par d) ∧ (addBatch b s).now = s.now ∧ (∀ d, (addBatch b s).car d = s.car d) := by simp [addBatch]

@[simp] theorem modBatch_keeps (id : BatchId) (f : Batch → Batch) (s : State) :
    (modBatch id f s).tracker = s.tracker ∧ (modBatch id f s).align = s.align ∧ (modBatch id f s).store = s.store ∧ (modBatch id f s).carriers = s.carriers ∧
    (modBatch id f s).probe = s.probe ∧ (modBatch id f s).link = s.link ∧ (modBatch id f s).mgmt = s.mgmt ∧ (modBatch id f s).firstEdge = s.firstEdge ∧
    (modBatch id f s).pending = s.pending ∧ (∀ d, (modBatch id f s).par d = s.par d) ∧ (modBatch id f s).now = s.now ∧ (∀ d, (modBatch id f s).car d = s.car d) := by simp [modBatch]

@[simp] theorem removeBatch_keeps (id : BatchId) (s : State) :
    (removeBatch id s).tracker = s.tracker ∧ (removeBatch id s).align = s.align ∧ (removeBatch id s).store = s.store ∧ (removeBatch id s).carriers = s.carriers ∧
    (removeBatch id s).probe = s.probe ∧ (removeBatch id s).link = s.link ∧ (removeBatch id s).mgmt = s.mgmt ∧ (removeBatch id s).firstEdge = s.firstEdge ∧
    (removeBatch id s).pending = s.pending ∧ (∀ d, (removeBatch id s).par d = s.par d) ∧ (removeBatch id s).now = s.now ∧ (∀ d, (removeBatch id s).car d = s.car d) := by simp [removeBatch]

/-! ### Slots, ends and claims: what they leave -/

@[simp] theorem modSched_keeps (c : Carrier) (f : Scheduler → Scheduler) (s : State) :
    (modSched c f s).tracker = s.tracker ∧ (modSched c f s).align = s.align ∧ (modSched c f s).batches = s.batches ∧ (modSched c f s).store = s.store ∧
    (modSched c f s).probe = s.probe ∧ (modSched c f s).link = s.link ∧ (modSched c f s).mgmt = s.mgmt ∧ (modSched c f s).firstEdge = s.firstEdge ∧
    (modSched c f s).pending = s.pending ∧ (∀ d, (modSched c f s).par d = s.par d) ∧ (modSched c f s).now = s.now ∧ (∀ d, d ≠ c → (modSched c f s).car d = s.car d) := by simp +contextual [modSched, State.modCar_car_other]

@[simp] theorem modTimer_keeps (c : Carrier) (f : LaunchTimer → LaunchTimer) (s : State) :
    (modTimer c f s).tracker = s.tracker ∧ (modTimer c f s).align = s.align ∧ (modTimer c f s).batches = s.batches ∧ (modTimer c f s).store = s.store ∧
    (modTimer c f s).probe = s.probe ∧ (modTimer c f s).link = s.link ∧ (modTimer c f s).mgmt = s.mgmt ∧ (modTimer c f s).firstEdge = s.firstEdge ∧
    (modTimer c f s).pending = s.pending ∧ (∀ d, (modTimer c f s).par d = s.par d) ∧ (modTimer c f s).now = s.now ∧ (∀ d, d ≠ c → (modTimer c f s).car d = s.car d) := by simp +contextual [modTimer, State.modCar_car_other]

@[simp] theorem assignCode_keeps (c : Carrier) (sl : SlotRef) (k : OutcomeCode) (id : Option BatchId) (s : State) :
    (assignCode c sl k id s).tracker = s.tracker ∧ (assignCode c sl k id s).align = s.align ∧ (assignCode c sl k id s).batches = s.batches ∧ (assignCode c sl k id s).store = s.store ∧
    (assignCode c sl k id s).probe = s.probe ∧ (assignCode c sl k id s).link = s.link ∧ (assignCode c sl k id s).mgmt = s.mgmt ∧ (assignCode c sl k id s).firstEdge = s.firstEdge ∧
    (assignCode c sl k id s).pending = s.pending ∧ (∀ d, (assignCode c sl k id s).par d = s.par d) ∧ (assignCode c sl k id s).now = s.now ∧ (∀ d, d ≠ c → (assignCode c sl k id s).car d = s.car d) := by simp +contextual [assignCode]

@[simp] theorem assignByRun_keeps (c : Carrier) (k : OutcomeCode) (id : BatchId) (s : State) :
    (assignByRun c k id s).tracker = s.tracker ∧ (assignByRun c k id s).align = s.align ∧ (assignByRun c k id s).batches = s.batches ∧ (assignByRun c k id s).store = s.store ∧
    (assignByRun c k id s).probe = s.probe ∧ (assignByRun c k id s).link = s.link ∧ (assignByRun c k id s).mgmt = s.mgmt ∧ (assignByRun c k id s).firstEdge = s.firstEdge ∧
    (assignByRun c k id s).pending = s.pending ∧ (∀ d, (assignByRun c k id s).par d = s.par d) ∧ (assignByRun c k id s).now = s.now ∧ (∀ d, d ≠ c → (assignByRun c k id s).car d = s.car d) := by
  unfold assignByRun
  dsimp only
  repeat' split
  all_goals simp +contextual

@[simp] theorem recordSlots_keeps (c : Carrier) (p : OpenSlot → Bool) (s : State) :
    (recordSlots c p s).tracker = s.tracker ∧ (recordSlots c p s).align = s.align ∧ (recordSlots c p s).batches = s.batches ∧ (recordSlots c p s).store = s.store ∧
    (recordSlots c p s).probe = s.probe ∧ (recordSlots c p s).link = s.link ∧ (recordSlots c p s).mgmt = s.mgmt ∧ (recordSlots c p s).firstEdge = s.firstEdge ∧
    (recordSlots c p s).pending = s.pending ∧ (∀ d, (recordSlots c p s).par d = s.par d) ∧ (recordSlots c p s).now = s.now ∧ (∀ d, d ≠ c → (recordSlots c p s).car d = s.car d) := by simp +contextual [recordSlots]

@[simp] theorem countEnd_keeps (c : Carrier) (why : EndReason) (s : State) :
    (countEnd c why s).tracker = s.tracker ∧ (countEnd c why s).align = s.align ∧ (countEnd c why s).batches = s.batches ∧ (countEnd c why s).store = s.store ∧
    (countEnd c why s).probe = s.probe ∧ (countEnd c why s).link = s.link ∧ (countEnd c why s).mgmt = s.mgmt ∧ (countEnd c why s).firstEdge = s.firstEdge ∧
    (countEnd c why s).pending = s.pending ∧ (∀ d, (countEnd c why s).par d = s.par d) ∧ (countEnd c why s).now = s.now ∧ (∀ d, d ≠ c → (countEnd c why s).car d = s.car d) := by
  unfold countEnd
  repeat' split
  all_goals simp +contextual

@[simp] theorem endBatch_keeps (id : BatchId) (why : EndReason) (s : State) :
    (endBatch id why s).tracker = s.tracker ∧ (endBatch id why s).align = s.align ∧ (endBatch id why s).probe = s.probe ∧ (endBatch id why s).link = s.link ∧
    (endBatch id why s).mgmt = s.mgmt ∧ (endBatch id why s).firstEdge = s.firstEdge ∧ (endBatch id why s).pending = s.pending ∧ (∀ d, (endBatch id why s).par d = s.par d) ∧
    (endBatch id why s).now = s.now := by
  unfold endBatch
  repeat' split
  all_goals simp +contextual

@[simp] theorem handOver_keeps (c : Carrier) (s : State) :
    (handOver c s).tracker = s.tracker ∧ (handOver c s).align = s.align ∧ (handOver c s).store = s.store ∧ (handOver c s).probe = s.probe ∧
    (handOver c s).link = s.link ∧ (handOver c s).mgmt = s.mgmt ∧ (handOver c s).firstEdge = s.firstEdge ∧ (handOver c s).pending = s.pending ∧
    (∀ d, (handOver c s).par d = s.par d) ∧ (handOver c s).now = s.now ∧ (∀ d, d ≠ c → (handOver c s).car d = s.car d) := by
  unfold handOver
  repeat' split
  all_goals simp +contextual

@[simp] theorem endStale_keeps (c : Carrier) (ids : List BatchId) (s : State) :
    (endStale c ids s).tracker = s.tracker ∧ (endStale c ids s).align = s.align ∧ (endStale c ids s).probe = s.probe ∧ (endStale c ids s).link = s.link ∧
    (endStale c ids s).mgmt = s.mgmt ∧ (endStale c ids s).firstEdge = s.firstEdge ∧ (endStale c ids s).pending = s.pending ∧ (∀ d, (endStale c ids s).par d = s.par d) ∧
    (endStale c ids s).now = s.now := by
  induction ids generalizing s with
  | nil => simp [endStale]
  | cons x xs ih => simp [endStale, ih]

@[simp] theorem setMaps_keeps (c : Carrier) (m : ClaimMaps) (s : State) :
    (setMaps c m s).tracker = s.tracker ∧ (setMaps c m s).align = s.align ∧ (setMaps c m s).batches = s.batches ∧ (setMaps c m s).store = s.store ∧
    (setMaps c m s).probe = s.probe ∧ (setMaps c m s).link = s.link ∧ (setMaps c m s).mgmt = s.mgmt ∧ (setMaps c m s).firstEdge = s.firstEdge ∧
    (setMaps c m s).pending = s.pending ∧ (∀ d, (setMaps c m s).par d = s.par d) ∧ (setMaps c m s).now = s.now ∧ (∀ d, d ≠ c → (setMaps c m s).car d = s.car d) := by simp +contextual [setMaps, State.modCar_car_other]

/-- The lateness check is R66's, for a numbered machine. -/
theorem headerLate_iff {c : Carrier} {n : CycleNo} {i : Fin 32} {s : State} {e : EpochNo} (he : s.tracker.epoch = some e) :
    headerLate c n i s = true ↔ Safety.Late c n i s := by
  have hp : ∀ g : Grid, startPassed c (gridStart g (i.val % 8)) s = true ↔ Safety.SlotPast c g (i.val % 8) s := by
    intro g
    have hg : gridStart g (i.val % 8) = g.pred + BitVec.ofNat 72 (i.val % 8 * (g.sum8 * 1024)) := by
      rw [gridStart, fxAdd, BitVec.ofInt_natCast]; rfl
    unfold startPassed startSettled Safety.SlotPast
    rw [hg]
    cases h : (s.car c).sched.settled <;> simp [decisionInstant, tickSub, State.now, Config.msTicks, Config.decisionMargin]
  have hk : firstEpoch n + BitVec.ofNat 32 (i.val / 8) = BitVec.ofNat 32 (4 * n.toNat + i.val / 8) := by
    rw [firstEpoch, ← BitVec.ofNat_add]
  have h1 : ∀ k : EpochNo, k ≠ e → (epochAtOrBehind k e = true ↔ 2147483648 ≤ (k - e).toNat) := by
    intro k hk
    have : (k - e).toNat ≠ 0 := fun h => hk (by bv_omega)
    simp only [epochAtOrBehind, Bool.or_eq_true, beq_iff_eq, this, false_or, decide_eq_true_eq]
  unfold headerLate Safety.Late
  simp only [he, hk, Option.some.injEq, exists_eq_left']
  generalize hK : BitVec.ofNat 32 (4 * n.toNat + i.val / 8) = k
  have h2 : e ≠ e + 1 := by bv_omega
  by_cases ha : k = e
  · subst ha
    cases hc : s.tracker.current <;> simp [hc, hp, h2]
  · by_cases hb : k = e + 1
    · subst hb
      cases hc : s.tracker.next <;> simp [hc, hp, Ne.symm h2]
    · rw [if_neg ha, if_neg hb, h1 k ha]
      simp only [ha, hb, false_and, false_or, ne_eq, not_false_eq_true, true_and]

/-- All that the current cycle can be: the next epoch's, where slot 0 of it is passed, else the epoch's own (R62). -/
theorem currentCycle_cases {c : Carrier} {s : State} {n : CycleNo} (h : currentCycle c s = some n) :
    timingAvailable s = true ∧ ∃ e, s.tracker.epoch = some e ∧
      ((startsCycle (e + 1) = true ∧ n = cycleOf (e + 1) ∧ ∃ g, s.tracker.next = some g ∧ startPassed c g.pred s = true) ∨
        (n = cycleOf e ∧ ∀ g, s.tracker.next = some g → startsCycle (e + 1) = true → startPassed c g.pred s = false)) := by
  unfold currentCycle at h
  repeat' split at h
  all_goals simp_all

/-- With slot 0 of the next cycle settled the current cycle is that one, whatever the lead and the tick (R62, R86). -/
theorem currentCycle_settled {c : Carrier} {s : State} {e : EpochNo} {g : Grid} (ht : timingAvailable s = true)
    (he : s.tracker.epoch = some e) (hg : s.tracker.next = some g) (h4 : startsCycle (e + 1) = true)
    (h : startSettled c g.pred s = true) : currentCycle c s = some (cycleOf (e + 1)) := by
  simp only [currentCycle, startPassed, ht, he, hg, h4, h, Bool.or_true, Bool.and_true, if_true]

@[simp] theorem bringMaps_keeps (c : Carrier) (s : State) :
    (bringMaps c s).tracker = s.tracker ∧ (bringMaps c s).align = s.align ∧ (bringMaps c s).probe = s.probe ∧ (bringMaps c s).link = s.link ∧
    (bringMaps c s).mgmt = s.mgmt ∧ (bringMaps c s).firstEdge = s.firstEdge ∧ (bringMaps c s).pending = s.pending ∧ (∀ d, (bringMaps c s).par d = s.par d) ∧
    (bringMaps c s).now = s.now := by
  unfold bringMaps
  dsimp only
  repeat' split
  all_goals simp +contextual

@[simp] theorem emptyMaps_keeps (s : State) :
    (emptyMaps s).tracker = s.tracker ∧ (emptyMaps s).align = s.align ∧ (emptyMaps s).batches = s.batches ∧ (emptyMaps s).store = s.store ∧
    (emptyMaps s).probe = s.probe ∧ (emptyMaps s).link = s.link ∧ (emptyMaps s).mgmt = s.mgmt ∧ (emptyMaps s).firstEdge = s.firstEdge ∧
    (emptyMaps s).pending = s.pending ∧ (∀ d, (emptyMaps s).par d = s.par d) ∧ (emptyMaps s).now = s.now := by simp [emptyMaps]

/-! ### Keys, the release and the flush: what they leave -/

@[simp] theorem dropKey_keeps (c : Carrier) (s : State) :
    (dropKey c s).tracker = s.tracker ∧ (dropKey c s).align = s.align ∧ (dropKey c s).batches = s.batches ∧ (dropKey c s).store = s.store ∧
    (dropKey c s).probe = s.probe ∧ (dropKey c s).link = s.link ∧ (dropKey c s).mgmt = s.mgmt ∧ (dropKey c s).firstEdge = s.firstEdge ∧
    (dropKey c s).pending = s.pending ∧ (∀ d, (dropKey c s).par d = s.par d) ∧ (dropKey c s).now = s.now ∧ (∀ d, d ≠ c → (dropKey c s).car d = s.car d) := by simp +contextual [dropKey, State.modCar_car_other]

@[simp] theorem setBack_keeps (r : Run) (s : State) :
    (setBack r s).tracker = s.tracker ∧ (setBack r s).align = s.align ∧ (setBack r s).store = s.store ∧ (setBack r s).carriers = s.carriers ∧
    (setBack r s).probe = s.probe ∧ (setBack r s).link = s.link ∧ (setBack r s).mgmt = s.mgmt ∧ (setBack r s).firstEdge = s.firstEdge ∧
    (setBack r s).pending = s.pending ∧ (∀ d, (setBack r s).par d = s.par d) ∧ (setBack r s).now = s.now ∧ (∀ d, (setBack r s).car d = s.car d) := by
  unfold setBack
  repeat' split
  all_goals simp +contextual

@[simp] theorem cutRun_keeps (c : Carrier) (r : Run) (s : State) :
    (cutRun c r s).tracker = s.tracker ∧ (cutRun c r s).align = s.align ∧ (cutRun c r s).batches = s.batches ∧ (cutRun c r s).store = s.store ∧
    (cutRun c r s).probe = s.probe ∧ (cutRun c r s).link = s.link ∧ (cutRun c r s).mgmt = s.mgmt ∧ (cutRun c r s).firstEdge = s.firstEdge ∧
    (cutRun c r s).pending = s.pending ∧ (∀ d, (cutRun c r s).par d = s.par d) ∧ (cutRun c r s).now = s.now ∧ (∀ d, d ≠ c → (cutRun c r s).car d = s.car d) := by simp +contextual [cutRun]

/-- A fold keeps whatever each of its steps keeps. -/
theorem foldl_keeps {α β : Type} (p : State → α) {f : State → β → State} (h : ∀ s x, p (f s x) = p s) (l : List β)
    (s : State) : p (l.foldl f s) = p s := by
  induction l generalizing s with
  | nil => rfl
  | cons x xs ih => rw [List.foldl_cons, ih, h]

@[simp] theorem releaseNow_keeps (c : Carrier) (x : Option SlotRef) (s : State) :
    (releaseNow c x s).tracker = s.tracker ∧ (releaseNow c x s).align = s.align ∧ (releaseNow c x s).store = s.store ∧ (releaseNow c x s).probe = s.probe ∧
    (releaseNow c x s).link = s.link ∧ (releaseNow c x s).mgmt = s.mgmt ∧ (releaseNow c x s).firstEdge = s.firstEdge ∧ (releaseNow c x s).pending = s.pending ∧
    (∀ d, (releaseNow c x s).par d = s.par d) ∧ (releaseNow c x s).now = s.now ∧ (∀ d, d ≠ c → (releaseNow c x s).car d = s.car d) := by
  have h (p : State → Tracker × Align × Store × Probe × Link × Mgmt × Bool × List Instr)
      (hp : p = fun t => (t.tracker, t.align, t.store, t.probe, t.link, t.mgmt, t.firstEdge, t.pending)) :
      p (releaseNow c x s) = p s := by
    subst hp
    unfold releaseNow
    dsimp only
    split
    · rfl
    · simp only [State.modCar_tracker, State.modCar_align, State.modCar_store, State.modCar_probe, State.modCar_link,
        State.modCar_mgmt, State.modCar_firstEdge, State.modCar_pending, dropKey_keeps, modTimer_keeps]
      rw [foldl_keeps (fun t => (t.tracker, t.align, t.store, t.probe, t.link, t.mgmt, t.firstEdge, t.pending)) (by simp),
        foldl_keeps (fun t => (t.tracker, t.align, t.store, t.probe, t.link, t.mgmt, t.firstEdge, t.pending)) (by simp)]
  have h := h _ rfl
  simp only [Prod.mk.injEq] at h
  obtain ⟨h1, h2, h3, h4, h5, h6, h7, h8⟩ := h
  refine ⟨h1, h2, h3, h4, h5, h6, h7, h8, fun d => by simp only [State.par, h6], by simp only [State.now, h1], fun d hd => ?_⟩
  unfold releaseNow
  dsimp only
  split
  · rfl
  · rw [State.modCar_car_other _ _ hd, (dropKey_keeps c _).2.2.2.2.2.2.2.2.2.2.2 d hd, (modTimer_keeps c _ _).2.2.2.2.2.2.2.2.2.2.2 d hd,
      foldl_keeps (fun t => t.car d) (by simp), foldl_keeps (fun t => t.car d) (by simp [hd])]

@[simp] theorem releaseAll_keeps (s : State) :
    (releaseAll s).tracker = s.tracker ∧ (releaseAll s).align = s.align ∧ (releaseAll s).store = s.store ∧ (releaseAll s).probe = s.probe ∧
    (releaseAll s).link = s.link ∧ (releaseAll s).mgmt = s.mgmt ∧ (releaseAll s).firstEdge = s.firstEdge ∧ (releaseAll s).pending = s.pending ∧
    (∀ d, (releaseAll s).par d = s.par d) ∧ (releaseAll s).now = s.now := by simp [releaseAll]

@[simp] theorem flushBatch_keeps (why : EndReason) (b : Batch) (s : State) :
    (flushBatch why b s).tracker = s.tracker ∧ (flushBatch why b s).align = s.align ∧ (flushBatch why b s).probe = s.probe ∧ (flushBatch why b s).link = s.link ∧
    (flushBatch why b s).mgmt = s.mgmt ∧ (flushBatch why b s).firstEdge = s.firstEdge ∧ (flushBatch why b s).pending = s.pending ∧ (∀ d, (flushBatch why b s).par d = s.par d) ∧
    (flushBatch why b s).now = s.now := by
  unfold flushBatch
  repeat' split
  all_goals simp +contextual

@[simp] theorem flushAll_keeps (why : EndReason) (s : State) :
    (flushAll why s).tracker = s.tracker ∧ (flushAll why s).align = s.align ∧ (flushAll why s).probe = s.probe ∧ (flushAll why s).link = s.link ∧
    (flushAll why s).mgmt = s.mgmt ∧ (flushAll why s).firstEdge = s.firstEdge ∧ (flushAll why s).pending = s.pending ∧ (∀ d, (flushAll why s).par d = s.par d) ∧
    (flushAll why s).now = s.now := by
  have h : (fun t : State => (t.tracker, t.align, t.probe, t.link, t.mgmt, t.firstEdge, t.pending)) (flushAll why s) =
      (s.tracker, s.align, s.probe, s.link, s.mgmt, s.firstEdge, s.pending) := by
    unfold flushAll
    simp only [emptyMaps_keeps]
    exact foldl_keeps (fun t => (t.tracker, t.align, t.probe, t.link, t.mgmt, t.firstEdge, t.pending)) (by simp) _ _
  simp only [Prod.mk.injEq] at h
  obtain ⟨h1, h2, h3, h4, h5, h6, h7⟩ := h
  exact ⟨h1, h2, h3, h4, h5, h6, h7, fun d => by simp only [State.par, h5], by simp only [State.now, h1]⟩

/-! ### Own queue and wake: what they leave -/

@[simp] theorem offerOwn_keeps (f : Frame) (s : State) :
    (offerOwn f s).tracker = s.tracker ∧ (offerOwn f s).align = s.align ∧ (offerOwn f s).batches = s.batches ∧ (offerOwn f s).store = s.store ∧
    (offerOwn f s).carriers = s.carriers ∧ (offerOwn f s).probe = s.probe ∧ (offerOwn f s).firstEdge = s.firstEdge ∧ (offerOwn f s).pending = s.pending ∧
    (offerOwn f s).mgmt.service = s.mgmt.service ∧ (offerOwn f s).mgmt.params = s.mgmt.params ∧ (offerOwn f s).mgmt.cause = s.mgmt.cause ∧ (offerOwn f s).mgmt.alarms = s.mgmt.alarms ∧
    (∀ d, (offerOwn f s).par d = s.par d) ∧ (offerOwn f s).now = s.now ∧ (∀ d, (offerOwn f s).car d = s.car d) := by
  unfold offerOwn
  repeat' split
  all_goals simp +contextual

@[simp] theorem wakeTrigger_keeps (c : Carrier) (s : State) :
    (wakeTrigger c s).tracker = s.tracker ∧ (wakeTrigger c s).align = s.align ∧ (wakeTrigger c s).batches = s.batches ∧ (wakeTrigger c s).store = s.store ∧
    (wakeTrigger c s).probe = s.probe ∧ (wakeTrigger c s).link = s.link ∧ (wakeTrigger c s).mgmt = s.mgmt ∧ (wakeTrigger c s).firstEdge = s.firstEdge ∧
    (wakeTrigger c s).pending = s.pending ∧ (∀ d, (wakeTrigger c s).par d = s.par d) ∧ (wakeTrigger c s).now = s.now ∧ (∀ d, d ≠ c → (wakeTrigger c s).car d = s.car d) := by
  unfold wakeTrigger
  split <;> simp +contextual [State.modCar_car_other]

/-! ### Frames: what they leave -/

@[simp] theorem repeatFrame_keeps (f : Frame) (s : State) :
    (repeatFrame f s).tracker = s.tracker ∧ (repeatFrame f s).align = s.align ∧ (repeatFrame f s).batches = s.batches ∧ (repeatFrame f s).store = s.store ∧
    (repeatFrame f s).carriers = s.carriers ∧ (repeatFrame f s).probe = s.probe ∧ (repeatFrame f s).mgmt = s.mgmt ∧ (repeatFrame f s).firstEdge = s.firstEdge ∧
    (repeatFrame f s).pending = s.pending ∧ (∀ d, (repeatFrame f s).par d = s.par d) ∧ (repeatFrame f s).now = s.now ∧ (∀ d, (repeatFrame f s).car d = s.car d) := by simp [repeatFrame]

@[simp] theorem sendReport_keeps (c : Carrier) (s : State) :
    (sendReport c s).tracker = s.tracker ∧ (sendReport c s).align = s.align ∧ (sendReport c s).batches = s.batches ∧ (sendReport c s).store = s.store ∧
    (sendReport c s).carriers = s.carriers ∧ (sendReport c s).probe = s.probe ∧ (sendReport c s).firstEdge = s.firstEdge ∧ (sendReport c s).pending = s.pending ∧
    (sendReport c s).mgmt.service = s.mgmt.service ∧ (sendReport c s).mgmt.params = s.mgmt.params ∧ (sendReport c s).mgmt.cause = s.mgmt.cause ∧ (sendReport c s).mgmt.alarms = s.mgmt.alarms ∧
    (∀ d, (sendReport c s).par d = s.par d) ∧ (sendReport c s).now = s.now ∧ (∀ d, (sendReport c s).car d = s.car d) := by
  unfold sendReport
  repeat' split
  all_goals simp +contextual

@[simp] theorem relabel_keeps (c : Carrier) (e : EpochNo) (s : State) :
    (relabel c e s).tracker = s.tracker ∧ (relabel c e s).align = s.align ∧ (relabel c e s).batches = s.batches ∧ (relabel c e s).store = s.store ∧
    (relabel c e s).probe = s.probe ∧ (relabel c e s).link = s.link ∧ (relabel c e s).mgmt = s.mgmt ∧ (relabel c e s).firstEdge = s.firstEdge ∧
    (relabel c e s).pending = s.pending ∧ (∀ d, (relabel c e s).par d = s.par d) ∧ (relabel c e s).now = s.now ∧ (∀ d, d ≠ c → (relabel c e s).car d = s.car d) := by simp +contextual [relabel]

@[simp] theorem noteClosed_keeps (c : Carrier) (p : OpenSlot → Bool) (s : State) :
    (noteClosed c p s).tracker = s.tracker ∧ (noteClosed c p s).align = s.align ∧ (noteClosed c p s).batches = s.batches ∧ (noteClosed c p s).store = s.store ∧
    (noteClosed c p s).probe = s.probe ∧ (noteClosed c p s).link = s.link ∧ (noteClosed c p s).mgmt = s.mgmt ∧ (noteClosed c p s).firstEdge = s.firstEdge ∧
    (noteClosed c p s).pending = s.pending ∧ (∀ d, (noteClosed c p s).par d = s.par d) ∧ (noteClosed c p s).now = s.now ∧ (∀ d, d ≠ c → (noteClosed c p s).car d = s.car d) := by simp +contextual [noteClosed]

@[simp] theorem reportCycle_keeps (c : Carrier) (e : EpochNo) (r : Bool) (s : State) :
    (reportCycle c e r s).tracker = s.tracker ∧ (reportCycle c e r s).align = s.align ∧ (reportCycle c e r s).batches = s.batches ∧ (reportCycle c e r s).store = s.store ∧
    (reportCycle c e r s).probe = s.probe ∧ (reportCycle c e r s).firstEdge = s.firstEdge ∧ (reportCycle c e r s).pending = s.pending ∧ (reportCycle c e r s).mgmt.service = s.mgmt.service ∧
    (reportCycle c e r s).mgmt.params = s.mgmt.params ∧ (reportCycle c e r s).mgmt.cause = s.mgmt.cause ∧ (reportCycle c e r s).mgmt.alarms = s.mgmt.alarms ∧ (∀ d, (reportCycle c e r s).par d = s.par d) ∧
    (reportCycle c e r s).now = s.now ∧ (∀ d, d ≠ c → (reportCycle c e r s).car d = s.car d) := by
  unfold reportCycle
  cases r <;> simp +contextual

@[simp] theorem reportCycles_keeps (e : EpochNo) (r : Bool) (s : State) :
    (reportCycles e r s).tracker = s.tracker ∧ (reportCycles e r s).align = s.align ∧ (reportCycles e r s).batches = s.batches ∧ (reportCycles e r s).store = s.store ∧
    (reportCycles e r s).probe = s.probe ∧ (reportCycles e r s).firstEdge = s.firstEdge ∧ (reportCycles e r s).pending = s.pending ∧ (reportCycles e r s).mgmt.service = s.mgmt.service ∧
    (reportCycles e r s).mgmt.params = s.mgmt.params ∧ (reportCycles e r s).mgmt.cause = s.mgmt.cause ∧ (reportCycles e r s).mgmt.alarms = s.mgmt.alarms ∧ (∀ d, (reportCycles e r s).par d = s.par d) ∧
    (reportCycles e r s).now = s.now := by simp [reportCycles]

end Sys2Proof.Machine
end

