-- ==== Sys2Proof/Laws/Units.lean ====
section
/-! SUPPORT. The operations of the single units: for each what it leaves unchanged (one `@[simp]` lemma). -/

namespace Sys2Proof.Machine

/-! ### The probe: what its operations leave -/

@[simp] theorem endProbe_keeps (r : ProbeRecord) (s : State) :
    (endProbe r s).tracker = s.tracker ∧ (endProbe r s).align = s.align ∧ (endProbe r s).batches = s.batches ∧ (endProbe r s).store = s.store ∧
    (endProbe r s).carriers = s.carriers ∧ (endProbe r s).link = s.link ∧ (endProbe r s).mgmt = s.mgmt ∧ (endProbe r s).firstEdge = s.firstEdge ∧
    (endProbe r s).pending = s.pending ∧ (∀ d, (endProbe r s).par d = s.par d) ∧ (endProbe r s).now = s.now ∧ (∀ d, (endProbe r s).car d = s.car d) := by simp [endProbe]

@[simp] theorem returnKey_keeps (s : State) :
    (returnKey s).tracker = s.tracker ∧ (returnKey s).align = s.align ∧ (returnKey s).batches = s.batches ∧ (returnKey s).store = s.store ∧
    (returnKey s).probe = s.probe ∧ (returnKey s).link = s.link ∧ (returnKey s).mgmt = s.mgmt ∧ (returnKey s).firstEdge = s.firstEdge ∧
    (returnKey s).pending = s.pending ∧ (∀ d, (returnKey s).par d = s.par d) ∧ (returnKey s).now = s.now := by
  unfold returnKey
  repeat' split
  all_goals simp +contextual

@[simp] theorem abortProbe_keeps (s : State) :
    (abortProbe s).tracker = s.tracker ∧ (abortProbe s).align = s.align ∧ (abortProbe s).batches = s.batches ∧ (abortProbe s).store = s.store ∧
    (abortProbe s).link = s.link ∧ (abortProbe s).mgmt = s.mgmt ∧ (abortProbe s).firstEdge = s.firstEdge ∧ (abortProbe s).pending = s.pending ∧
    (∀ d, (abortProbe s).par d = s.par d) ∧ (abortProbe s).now = s.now := by
  unfold abortProbe
  dsimp only
  repeat' split
  all_goals simp +contextual

@[simp] theorem restartProbe_keeps (s : State) :
    (restartProbe s).tracker = s.tracker ∧ (restartProbe s).align = s.align ∧ (restartProbe s).batches = s.batches ∧ (restartProbe s).store = s.store ∧
    (restartProbe s).link = s.link ∧ (restartProbe s).mgmt = s.mgmt ∧ (restartProbe s).firstEdge = s.firstEdge ∧ (restartProbe s).pending = s.pending ∧
    (∀ d, (restartProbe s).par d = s.par d) ∧ (restartProbe s).now = s.now := by simp [restartProbe]

@[simp] theorem clearResult_keeps (s : State) :
    (clearResult s).tracker = s.tracker ∧ (clearResult s).align = s.align ∧ (clearResult s).batches = s.batches ∧ (clearResult s).store = s.store ∧
    (clearResult s).carriers = s.carriers ∧ (clearResult s).link = s.link ∧ (clearResult s).mgmt = s.mgmt ∧ (clearResult s).firstEdge = s.firstEdge ∧
    (clearResult s).pending = s.pending ∧ (∀ d, (clearResult s).par d = s.par d) ∧ (clearResult s).now = s.now ∧ (∀ d, (clearResult s).car d = s.car d) := by simp [clearResult]

@[simp] theorem startProbe_keeps (c : Carrier) (m : ProbeMode) (a : Bool) (s : State) :
    (startProbe c m a s).tracker = s.tracker ∧ (startProbe c m a s).align = s.align ∧ (startProbe c m a s).batches = s.batches ∧ (startProbe c m a s).store = s.store ∧
    (startProbe c m a s).link = s.link ∧ (startProbe c m a s).mgmt = s.mgmt ∧ (startProbe c m a s).firstEdge = s.firstEdge ∧ (startProbe c m a s).pending = s.pending ∧
    (∀ d, (startProbe c m a s).par d = s.par d) ∧ (startProbe c m a s).now = s.now ∧ (∀ d, d ≠ c → (startProbe c m a s).car d = s.car d) := by
  cases m <;> simp +contextual [startProbe, State.modCar_car_other]

@[simp] theorem driveProbe_keeps (v : Int) (s : State) :
    (driveProbe v s).tracker = s.tracker ∧ (driveProbe v s).align = s.align ∧ (driveProbe v s).batches = s.batches ∧ (driveProbe v s).store = s.store ∧
    (driveProbe v s).probe = s.probe ∧ (driveProbe v s).link = s.link ∧ (driveProbe v s).mgmt = s.mgmt ∧ (driveProbe v s).firstEdge = s.firstEdge ∧
    (driveProbe v s).pending = s.pending ∧ (∀ d, (driveProbe v s).par d = s.par d) ∧ (driveProbe v s).now = s.now := by
  unfold driveProbe
  dsimp only
  split <;> simp

@[simp] theorem beginProbes_keeps (s : State) :
    (beginProbes s).tracker = s.tracker ∧ (beginProbes s).align = s.align ∧ (beginProbes s).batches = s.batches ∧ (beginProbes s).store = s.store ∧
    (beginProbes s).link = s.link ∧ (beginProbes s).mgmt = s.mgmt ∧ (beginProbes s).firstEdge = s.firstEdge ∧ (beginProbes s).pending = s.pending ∧
    (∀ d, (beginProbes s).par d = s.par d) ∧ (beginProbes s).now = s.now := by simp [beginProbes]

@[simp] theorem setSample_keeps (i : Nat) (x : Sample) (s : State) :
    (setSample i x s).tracker = s.tracker ∧ (setSample i x s).align = s.align ∧ (setSample i x s).batches = s.batches ∧ (setSample i x s).store = s.store ∧
    (setSample i x s).carriers = s.carriers ∧ (setSample i x s).link = s.link ∧ (setSample i x s).mgmt = s.mgmt ∧ (setSample i x s).firstEdge = s.firstEdge ∧
    (setSample i x s).pending = s.pending ∧ (∀ d, (setSample i x s).par d = s.par d) ∧ (setSample i x s).now = s.now ∧ (∀ d, (setSample i x s).car d = s.car d) := by simp [setSample]

@[simp] theorem adoptDelay_keeps (r : ProbeRecord) (s : State) :
    (adoptDelay r s).tracker = s.tracker ∧ (adoptDelay r s).batches = s.batches ∧ (adoptDelay r s).store = s.store ∧ (adoptDelay r s).carriers = s.carriers ∧
    (adoptDelay r s).probe = s.probe ∧ (adoptDelay r s).link = s.link ∧ (adoptDelay r s).mgmt = s.mgmt ∧ (adoptDelay r s).firstEdge = s.firstEdge ∧
    (adoptDelay r s).pending = s.pending ∧ (∀ d, (adoptDelay r s).par d = s.par d) ∧ (adoptDelay r s).now = s.now ∧ (∀ d, (adoptDelay r s).car d = s.car d) := by
  unfold adoptDelay
  dsimp only
  repeat' split
  all_goals simp

/-! ### The Tracker: what its operations leave -/

@[simp] theorem modTracker_keeps (f : Tracker → Tracker) (s : State) :
    (modTracker f s).align = s.align ∧ (modTracker f s).batches = s.batches ∧ (modTracker f s).store = s.store ∧ (modTracker f s).carriers = s.carriers ∧
    (modTracker f s).probe = s.probe ∧ (modTracker f s).link = s.link ∧ (modTracker f s).mgmt = s.mgmt ∧ (modTracker f s).firstEdge = s.firstEdge ∧
    (modTracker f s).pending = s.pending ∧ (∀ d, (modTracker f s).par d = s.par d) ∧ (∀ d, (modTracker f s).car d = s.car d) := by simp [modTracker]

@[simp] theorem sampleRf_keeps (s : State) :
    (sampleRf s).tracker = s.tracker ∧ (sampleRf s).align = s.align ∧ (sampleRf s).batches = s.batches ∧ (sampleRf s).store = s.store ∧
    (sampleRf s).probe = s.probe ∧ (sampleRf s).link = s.link ∧ (sampleRf s).mgmt = s.mgmt ∧ (sampleRf s).firstEdge = s.firstEdge ∧
    (sampleRf s).pending = s.pending ∧ (∀ d, (sampleRf s).par d = s.par d) ∧ (sampleRf s).now = s.now := by simp [sampleRf]

@[simp] theorem advanceTick_keeps (s : State) :
    (advanceTick s).align = s.align ∧ (advanceTick s).batches = s.batches ∧ (advanceTick s).store = s.store ∧ (advanceTick s).carriers = s.carriers ∧
    (advanceTick s).probe = s.probe ∧ (advanceTick s).link = s.link ∧ (advanceTick s).mgmt = s.mgmt ∧ (advanceTick s).firstEdge = s.firstEdge ∧
    (advanceTick s).pending = s.pending ∧ (∀ d, (advanceTick s).par d = s.par d) ∧ (∀ d, (advanceTick s).car d = s.car d) := by simp [advanceTick]

@[simp] theorem timingLoss_keeps (s : State) :
    (timingLoss s).tracker = s.tracker ∧ (timingLoss s).align = s.align ∧ (timingLoss s).link = s.link ∧ (timingLoss s).mgmt = s.mgmt ∧
    (timingLoss s).firstEdge = s.firstEdge ∧ (timingLoss s).pending = s.pending ∧ (∀ d, (timingLoss s).par d = s.par d) ∧ (timingLoss s).now = s.now := by simp [timingLoss]

@[simp] theorem recordAllOpen_keeps (s : State) :
    (recordAllOpen s).tracker = s.tracker ∧ (recordAllOpen s).align = s.align ∧ (recordAllOpen s).batches = s.batches ∧ (recordAllOpen s).store = s.store ∧
    (recordAllOpen s).probe = s.probe ∧ (recordAllOpen s).link = s.link ∧ (recordAllOpen s).mgmt = s.mgmt ∧ (recordAllOpen s).firstEdge = s.firstEdge ∧
    (recordAllOpen s).pending = s.pending ∧ (∀ d, (recordAllOpen s).par d = s.par d) ∧ (recordAllOpen s).now = s.now := by simp [recordAllOpen]

@[simp] theorem clearMonitors_keeps (s : State) :
    (clearMonitors s).tracker = s.tracker ∧ (clearMonitors s).align = s.align ∧ (clearMonitors s).batches = s.batches ∧ (clearMonitors s).store = s.store ∧
    (clearMonitors s).probe = s.probe ∧ (clearMonitors s).link = s.link ∧ (clearMonitors s).mgmt = s.mgmt ∧ (clearMonitors s).firstEdge = s.firstEdge ∧
    (clearMonitors s).pending = s.pending ∧ (∀ d, (clearMonitors s).par d = s.par d) ∧ (clearMonitors s).now = s.now := by simp [clearMonitors]

@[simp] theorem renumberingFlush_keeps (s : State) :
    (renumberingFlush s).tracker = s.tracker ∧ (renumberingFlush s).align = s.align ∧ (renumberingFlush s).probe = s.probe ∧ (renumberingFlush s).link = s.link ∧
    (renumberingFlush s).firstEdge = s.firstEdge ∧ (renumberingFlush s).pending = s.pending ∧ (renumberingFlush s).mgmt.service = s.mgmt.service ∧ (renumberingFlush s).mgmt.params = s.mgmt.params ∧
    (renumberingFlush s).mgmt.cause = s.mgmt.cause ∧ (renumberingFlush s).mgmt.counters = s.mgmt.counters ∧ (∀ d, (renumberingFlush s).par d = s.par d) ∧ (renumberingFlush s).now = s.now := by simp [renumberingFlush]

@[simp] theorem bringAllMaps_keeps (s : State) :
    (bringAllMaps s).tracker = s.tracker ∧ (bringAllMaps s).align = s.align ∧ (bringAllMaps s).probe = s.probe ∧ (bringAllMaps s).link = s.link ∧
    (bringAllMaps s).mgmt = s.mgmt ∧ (bringAllMaps s).firstEdge = s.firstEdge ∧ (bringAllMaps s).pending = s.pending ∧ (∀ d, (bringAllMaps s).par d = s.par d) ∧
    (bringAllMaps s).now = s.now := by simp [bringAllMaps]

@[simp] theorem startReports_keeps (r : Bool) (s : State) :
    (startReports r s).tracker = s.tracker ∧ (startReports r s).align = s.align ∧ (startReports r s).batches = s.batches ∧ (startReports r s).store = s.store ∧
    (startReports r s).probe = s.probe ∧ (startReports r s).firstEdge = s.firstEdge ∧ (startReports r s).pending = s.pending ∧ (startReports r s).mgmt.service = s.mgmt.service ∧
    (startReports r s).mgmt.params = s.mgmt.params ∧ (startReports r s).mgmt.cause = s.mgmt.cause ∧ (startReports r s).mgmt.alarms = s.mgmt.alarms ∧ (∀ d, (startReports r s).par d = s.par d) ∧
    (startReports r s).now = s.now := by
  unfold startReports
  repeat' split
  all_goals simp +contextual

@[simp] theorem completeStart_keeps (s : State) :
    (completeStart s).align = s.align ∧ (completeStart s).probe = s.probe ∧ (completeStart s).firstEdge = s.firstEdge ∧ (completeStart s).pending = s.pending ∧
    (completeStart s).mgmt.service = s.mgmt.service ∧ (completeStart s).mgmt.params = s.mgmt.params ∧ (completeStart s).mgmt.cause = s.mgmt.cause ∧ (∀ d, (completeStart s).par d = s.par d) := by
  unfold completeStart
  dsimp only
  split <;> simp

/-! ### Slots and runs: what their operations leave -/

@[simp] theorem displaceOldest_keeps (c : Carrier) (sl : SlotRef) (s : State) :
    (displaceOldest c sl s).tracker = s.tracker ∧ (displaceOldest c sl s).align = s.align ∧ (displaceOldest c sl s).probe = s.probe ∧ (displaceOldest c sl s).link = s.link ∧
    (displaceOldest c sl s).mgmt = s.mgmt ∧ (displaceOldest c sl s).firstEdge = s.firstEdge ∧ (displaceOldest c sl s).pending = s.pending ∧ (∀ d, (displaceOldest c sl s).par d = s.par d) ∧
    (displaceOldest c sl s).now = s.now := by
  unfold displaceOldest
  repeat' split
  all_goals simp +contextual

@[simp] theorem pushOnAir_keeps (c : Carrier) (sl : SlotRef) (id : BatchId) (s : State) :
    (pushOnAir c sl id s).tracker = s.tracker ∧ (pushOnAir c sl id s).align = s.align ∧ (pushOnAir c sl id s).probe = s.probe ∧ (pushOnAir c sl id s).link = s.link ∧
    (pushOnAir c sl id s).mgmt = s.mgmt ∧ (pushOnAir c sl id s).firstEdge = s.firstEdge ∧ (pushOnAir c sl id s).pending = s.pending ∧ (∀ d, (pushOnAir c sl id s).par d = s.par d) ∧
    (pushOnAir c sl id s).now = s.now := by simp [pushOnAir]

@[simp] theorem stopBatch_keeps (c : Carrier) (sl : SlotRef) (id : BatchId) (w : StopReason) (s : State) :
    (stopBatch c sl id w s).tracker = s.tracker ∧ (stopBatch c sl id w s).align = s.align ∧ (stopBatch c sl id w s).probe = s.probe ∧ (stopBatch c sl id w s).link = s.link ∧
    (stopBatch c sl id w s).mgmt = s.mgmt ∧ (stopBatch c sl id w s).firstEdge = s.firstEdge ∧ (stopBatch c sl id w s).pending = s.pending ∧ (∀ d, (stopBatch c sl id w s).par d = s.par d) ∧
    (stopBatch c sl id w s).now = s.now := by
  unfold stopBatch
  dsimp only
  split <;> simp

@[simp] theorem dropClaimant_keeps (c : Carrier) (sl : SlotRef) (b : Batch) (k : OutcomeCode) (w : EndReason) (s : State) :
    (dropClaimant c sl b k w s).tracker = s.tracker ∧ (dropClaimant c sl b k w s).align = s.align ∧ (dropClaimant c sl b k w s).probe = s.probe ∧ (dropClaimant c sl b k w s).link = s.link ∧
    (dropClaimant c sl b k w s).mgmt = s.mgmt ∧ (dropClaimant c sl b k w s).firstEdge = s.firstEdge ∧ (dropClaimant c sl b k w s).pending = s.pending ∧ (∀ d, (dropClaimant c sl b k w s).par d = s.par d) ∧
    (dropClaimant c sl b k w s).now = s.now := by simp [dropClaimant]

@[simp] theorem gateHolds_keeps (c : Carrier) (sl : SlotRef) (b : Option Batch) (k : OutcomeCode) (w : EndReason) (s : State) :
    (gateHolds c sl b k w s).tracker = s.tracker ∧ (gateHolds c sl b k w s).align = s.align ∧ (gateHolds c sl b k w s).probe = s.probe ∧ (gateHolds c sl b k w s).link = s.link ∧
    (gateHolds c sl b k w s).mgmt = s.mgmt ∧ (gateHolds c sl b k w s).firstEdge = s.firstEdge ∧ (gateHolds c sl b k w s).pending = s.pending ∧ (∀ d, (gateHolds c sl b k w s).par d = s.par d) ∧
    (gateHolds c sl b k w s).now = s.now := by
  cases b <;> simp [gateHolds]

@[simp] theorem marksOnAir_keeps (c : Carrier) (sl : SlotRef) (s : State) :
    (marksOnAir c sl s).tracker = s.tracker ∧ (marksOnAir c sl s).align = s.align ∧ (marksOnAir c sl s).probe = s.probe ∧ (marksOnAir c sl s).link = s.link ∧
    (marksOnAir c sl s).mgmt = s.mgmt ∧ (marksOnAir c sl s).firstEdge = s.firstEdge ∧ (marksOnAir c sl s).pending = s.pending ∧ (∀ d, (marksOnAir c sl s).par d = s.par d) ∧
    (marksOnAir c sl s).now = s.now := by
  unfold marksOnAir
  repeat' split
  all_goals simp +contextual

@[simp] theorem markerStep_keeps (c : Carrier) (sl : SlotRef) (s : State) :
    (markerStep c sl s).2.tracker = s.tracker ∧ (markerStep c sl s).2.align = s.align ∧ (markerStep c sl s).2.probe = s.probe ∧ (markerStep c sl s).2.link = s.link ∧
    (markerStep c sl s).2.mgmt = s.mgmt ∧ (markerStep c sl s).2.firstEdge = s.firstEdge ∧ (markerStep c sl s).2.pending = s.pending ∧ (∀ d, (markerStep c sl s).2.par d = s.par d) ∧
    (markerStep c sl s).2.now = s.now := by
  unfold markerStep
  dsimp only
  split <;> simp

@[simp] theorem claimantStep_keeps (c : Carrier) (sl : SlotRef) (b : Option Batch) (s : State) :
    (claimantStep c sl b s).2.tracker = s.tracker ∧ (claimantStep c sl b s).2.align = s.align ∧ (claimantStep c sl b s).2.probe = s.probe ∧ (claimantStep c sl b s).2.link = s.link ∧
    (claimantStep c sl b s).2.mgmt = s.mgmt ∧ (claimantStep c sl b s).2.firstEdge = s.firstEdge ∧ (claimantStep c sl b s).2.pending = s.pending ∧ (∀ d, (claimantStep c sl b s).2.par d = s.par d) ∧
    (claimantStep c sl b s).2.now = s.now := by
  unfold claimantStep
  repeat' split
  all_goals simp +contextual

@[simp] theorem continueStep_keeps (c : Carrier) (sl : SlotRef) (p : Option Program) (s : State) :
    (continueStep c sl p s).2.tracker = s.tracker ∧ (continueStep c sl p s).2.align = s.align ∧ (continueStep c sl p s).2.probe = s.probe ∧ (continueStep c sl p s).2.link = s.link ∧
    (continueStep c sl p s).2.mgmt = s.mgmt ∧ (continueStep c sl p s).2.firstEdge = s.firstEdge ∧ (continueStep c sl p s).2.pending = s.pending ∧ (∀ d, (continueStep c sl p s).2.par d = s.par d) ∧
    (continueStep c sl p s).2.now = s.now := by
  unfold continueStep
  repeat' split
  all_goals simp +contextual

@[simp] theorem resumeStep_keeps (c : Carrier) (sl : SlotRef) (ids : List BatchId) (s : State) :
    (resumeStep c sl ids s).2.tracker = s.tracker ∧ (resumeStep c sl ids s).2.align = s.align ∧ (resumeStep c sl ids s).2.probe = s.probe ∧ (resumeStep c sl ids s).2.link = s.link ∧
    (resumeStep c sl ids s).2.mgmt = s.mgmt ∧ (resumeStep c sl ids s).2.firstEdge = s.firstEdge ∧ (resumeStep c sl ids s).2.pending = s.pending ∧ (∀ d, (resumeStep c sl ids s).2.par d = s.par d) ∧
    (resumeStep c sl ids s).2.now = s.now := by
  induction ids generalizing s with
  | nil => simp [resumeStep]
  | cons id rest ih =>
    unfold resumeStep
    repeat' split
    all_goals simp [ih]

@[simp] theorem trafficSteps_keeps (c : Carrier) (sl : SlotRef) (b : Option Batch) (s : State) :
    (trafficSteps c sl b s).2.tracker = s.tracker ∧ (trafficSteps c sl b s).2.align = s.align ∧ (trafficSteps c sl b s).2.probe = s.probe ∧ (trafficSteps c sl b s).2.link = s.link ∧
    (trafficSteps c sl b s).2.mgmt = s.mgmt ∧ (trafficSteps c sl b s).2.firstEdge = s.firstEdge ∧ (trafficSteps c sl b s).2.pending = s.pending ∧ (∀ d, (trafficSteps c sl b s).2.par d = s.par d) ∧
    (trafficSteps c sl b s).2.now = s.now := by
  unfold trafficSteps
  dsimp only
  repeat' split
  all_goals simp

@[simp] theorem decisionSteps_keeps (c : Carrier) (sl : SlotRef) (b : Option Batch) (s : State) :
    (decisionSteps c sl b s).2.tracker = s.tracker ∧ (decisionSteps c sl b s).2.align = s.align ∧ (decisionSteps c sl b s).2.probe = s.probe ∧ (decisionSteps c sl b s).2.link = s.link ∧
    (decisionSteps c sl b s).2.mgmt = s.mgmt ∧ (decisionSteps c sl b s).2.firstEdge = s.firstEdge ∧ (decisionSteps c sl b s).2.pending = s.pending ∧ (∀ d, (decisionSteps c sl b s).2.par d = s.par d) ∧
    (decisionSteps c sl b s).2.now = s.now := by
  unfold decisionSteps
  repeat' split
  all_goals simp +contextual

@[simp] theorem launchRun_keeps (c : Carrier) (sl : SlotRef) (g : Fin 16) (x : RateClass) (k : RunContent) (s : State) :
    (launchRun c sl g x k s).tracker = s.tracker ∧ (launchRun c sl g x k s).align = s.align ∧ (launchRun c sl g x k s).batches = s.batches ∧ (launchRun c sl g x k s).store = s.store ∧
    (launchRun c sl g x k s).probe = s.probe ∧ (launchRun c sl g x k s).link = s.link ∧ (launchRun c sl g x k s).firstEdge = s.firstEdge ∧ (launchRun c sl g x k s).pending = s.pending ∧
    (launchRun c sl g x k s).mgmt.service = s.mgmt.service ∧ (launchRun c sl g x k s).mgmt.params = s.mgmt.params ∧ (launchRun c sl g x k s).mgmt.cause = s.mgmt.cause ∧ (launchRun c sl g x k s).mgmt.counters = s.mgmt.counters ∧
    (∀ d, (launchRun c sl g x k s).par d = s.par d) ∧ (launchRun c sl g x k s).now = s.now ∧ (∀ d, d ≠ c → (launchRun c sl g x k s).car d = s.car d) := by simp +contextual [launchRun, State.modCar_car_other]

@[simp] theorem measureMargin_keeps (c : Carrier) (b : Batch) (s : State) :
    (measureMargin c b s).tracker = s.tracker ∧ (measureMargin c b s).align = s.align ∧ (measureMargin c b s).batches = s.batches ∧ (measureMargin c b s).store = s.store ∧
    (measureMargin c b s).probe = s.probe ∧ (measureMargin c b s).link = s.link ∧ (measureMargin c b s).firstEdge = s.firstEdge ∧ (measureMargin c b s).pending = s.pending ∧
    (measureMargin c b s).mgmt.service = s.mgmt.service ∧ (measureMargin c b s).mgmt.params = s.mgmt.params ∧ (measureMargin c b s).mgmt.cause = s.mgmt.cause ∧ (measureMargin c b s).mgmt.counters = s.mgmt.counters ∧
    (∀ d, (measureMargin c b s).par d = s.par d) ∧ (measureMargin c b s).now = s.now ∧ (∀ d, d ≠ c → (measureMargin c b s).car d = s.car d) := by
  unfold measureMargin
  dsimp only
  repeat' split
  all_goals simp +contextual

@[simp] theorem programBatch_keeps (c : Carrier) (sl : SlotRef) (b : Batch) (s : State) :
    (programBatch c sl b s).tracker = s.tracker ∧ (programBatch c sl b s).align = s.align ∧ (programBatch c sl b s).store = s.store ∧ (programBatch c sl b s).probe = s.probe ∧
    (programBatch c sl b s).link = s.link ∧ (programBatch c sl b s).firstEdge = s.firstEdge ∧ (programBatch c sl b s).pending = s.pending ∧ (programBatch c sl b s).mgmt.service = s.mgmt.service ∧
    (programBatch c sl b s).mgmt.params = s.mgmt.params ∧ (programBatch c sl b s).mgmt.cause = s.mgmt.cause ∧ (programBatch c sl b s).mgmt.counters = s.mgmt.counters ∧ (∀ d, (programBatch c sl b s).par d = s.par d) ∧
    (programBatch c sl b s).now = s.now ∧ (∀ d, d ≠ c → (programBatch c sl b s).car d = s.car d) := by simp +contextual [programBatch]

@[simp] theorem bringOnAir_keeps (c : Carrier) (id : BatchId) (s : State) :
    (bringOnAir c id s).tracker = s.tracker ∧ (bringOnAir c id s).align = s.align ∧ (bringOnAir c id s).store = s.store ∧ (bringOnAir c id s).probe = s.probe ∧
    (bringOnAir c id s).link = s.link ∧ (bringOnAir c id s).mgmt = s.mgmt ∧ (bringOnAir c id s).firstEdge = s.firstEdge ∧ (bringOnAir c id s).pending = s.pending ∧
    (∀ d, (bringOnAir c id s).par d = s.par d) ∧ (bringOnAir c id s).now = s.now ∧ (∀ d, d ≠ c → (bringOnAir c id s).car d = s.car d) := by simp +contextual [bringOnAir]

@[simp] theorem takeProgram_keeps (c : Carrier) (sl : SlotRef) (p : Program) (s : State) :
    (takeProgram c sl p s).tracker = s.tracker ∧ (takeProgram c sl p s).align = s.align ∧ (takeProgram c sl p s).store = s.store ∧ (takeProgram c sl p s).probe = s.probe ∧
    (takeProgram c sl p s).link = s.link ∧ (takeProgram c sl p s).firstEdge = s.firstEdge ∧ (takeProgram c sl p s).pending = s.pending ∧ (takeProgram c sl p s).mgmt.service = s.mgmt.service ∧
    (takeProgram c sl p s).mgmt.params = s.mgmt.params ∧ (takeProgram c sl p s).mgmt.cause = s.mgmt.cause ∧ (takeProgram c sl p s).mgmt.counters = s.mgmt.counters ∧ (∀ d, (takeProgram c sl p s).par d = s.par d) ∧
    (takeProgram c sl p s).now = s.now ∧ (∀ d, d ≠ c → (takeProgram c sl p s).car d = s.car d) := by
  cases p
  all_goals
    simp only [takeProgram]
    repeat' split
  all_goals simp +contextual

@[simp] theorem consumeClaim_keeps (c : Carrier) (sl : SlotRef) (s : State) :
    (consumeClaim c sl s).tracker = s.tracker ∧ (consumeClaim c sl s).align = s.align ∧ (consumeClaim c sl s).batches = s.batches ∧ (consumeClaim c sl s).store = s.store ∧
    (consumeClaim c sl s).probe = s.probe ∧ (consumeClaim c sl s).link = s.link ∧ (consumeClaim c sl s).mgmt = s.mgmt ∧ (consumeClaim c sl s).firstEdge = s.firstEdge ∧
    (consumeClaim c sl s).pending = s.pending ∧ (∀ d, (consumeClaim c sl s).par d = s.par d) ∧ (consumeClaim c sl s).now = s.now ∧ (∀ d, d ≠ c → (consumeClaim c sl s).car d = s.car d) := by
  unfold consumeClaim
  dsimp only
  repeat' split
  all_goals simp +contextual

@[simp] theorem openSlot_keeps (c : Carrier) (sl : SlotRef) (s : State) :
    (openSlot c sl s).tracker = s.tracker ∧ (openSlot c sl s).align = s.align ∧ (openSlot c sl s).batches = s.batches ∧ (openSlot c sl s).store = s.store ∧
    (openSlot c sl s).probe = s.probe ∧ (openSlot c sl s).link = s.link ∧ (openSlot c sl s).mgmt = s.mgmt ∧ (openSlot c sl s).firstEdge = s.firstEdge ∧
    (openSlot c sl s).pending = s.pending ∧ (∀ d, (openSlot c sl s).par d = s.par d) ∧ (openSlot c sl s).now = s.now ∧ (∀ d, d ≠ c → (openSlot c sl s).car d = s.car d) := by simp +contextual [openSlot]

@[simp] theorem setProgram_keeps (c : Carrier) (sl : SlotRef) (p : Program) (s : State) :
    (setProgram c sl p s).tracker = s.tracker ∧ (setProgram c sl p s).align = s.align ∧ (setProgram c sl p s).batches = s.batches ∧ (setProgram c sl p s).store = s.store ∧
    (setProgram c sl p s).probe = s.probe ∧ (setProgram c sl p s).link = s.link ∧ (setProgram c sl p s).mgmt = s.mgmt ∧ (setProgram c sl p s).firstEdge = s.firstEdge ∧
    (setProgram c sl p s).pending = s.pending ∧ (∀ d, (setProgram c sl p s).par d = s.par d) ∧ (setProgram c sl p s).now = s.now ∧ (∀ d, d ≠ c → (setProgram c sl p s).car d = s.car d) := by simp +contextual [setProgram]

@[simp] theorem decideSlot_keeps (c : Carrier) (sl : SlotRef) (s : State) :
    (decideSlot c sl s).tracker = s.tracker ∧ (decideSlot c sl s).align = s.align ∧ (decideSlot c sl s).probe = s.probe ∧ (decideSlot c sl s).link = s.link ∧
    (decideSlot c sl s).firstEdge = s.firstEdge ∧ (decideSlot c sl s).pending = s.pending ∧ (decideSlot c sl s).mgmt.service = s.mgmt.service ∧ (decideSlot c sl s).mgmt.params = s.mgmt.params ∧
    (decideSlot c sl s).mgmt.cause = s.mgmt.cause ∧ (decideSlot c sl s).mgmt.counters = s.mgmt.counters ∧ (∀ d, (decideSlot c sl s).par d = s.par d) ∧ (decideSlot c sl s).now = s.now := by simp [decideSlot]

/-! ### Symbols and keys: what their operations leave -/

@[simp] theorem driveSymbol_keeps (c : Carrier) (w : WordSet) (v : Int) (s : State) :
    (driveSymbol c w v s).tracker = s.tracker ∧ (driveSymbol c w v s).align = s.align ∧ (driveSymbol c w v s).batches = s.batches ∧ (driveSymbol c w v s).store = s.store ∧
    (driveSymbol c w v s).probe = s.probe ∧ (driveSymbol c w v s).link = s.link ∧ (driveSymbol c w v s).mgmt = s.mgmt ∧ (driveSymbol c w v s).firstEdge = s.firstEdge ∧
    (driveSymbol c w v s).pending = s.pending ∧ (∀ d, (driveSymbol c w v s).par d = s.par d) ∧ (driveSymbol c w v s).now = s.now ∧ (∀ d, d ≠ c → (driveSymbol c w v s).car d = s.car d) := by
  unfold driveSymbol
  dsimp only
  split <;> simp +contextual [State.modCar_car_other]

@[simp] theorem keyUp_keeps (c : Carrier) (s : State) :
    (keyUp c s).tracker = s.tracker ∧ (keyUp c s).align = s.align ∧ (keyUp c s).batches = s.batches ∧ (keyUp c s).store = s.store ∧
    (keyUp c s).probe = s.probe ∧ (keyUp c s).link = s.link ∧ (keyUp c s).mgmt = s.mgmt ∧ (keyUp c s).firstEdge = s.firstEdge ∧
    (keyUp c s).pending = s.pending ∧ (∀ d, (keyUp c s).par d = s.par d) ∧ (keyUp c s).now = s.now ∧ (∀ d, d ≠ c → (keyUp c s).car d = s.car d) := by
  unfold keyUp
  split <;> simp +contextual [State.modCar_car_other]

@[simp] theorem keyFirst_keeps (c : Carrier) (r : Run) (s : State) :
    (keyFirst c r s).tracker = s.tracker ∧ (keyFirst c r s).align = s.align ∧ (keyFirst c r s).batches = s.batches ∧ (keyFirst c r s).store = s.store ∧
    (keyFirst c r s).probe = s.probe ∧ (keyFirst c r s).link = s.link ∧ (keyFirst c r s).mgmt = s.mgmt ∧ (keyFirst c r s).firstEdge = s.firstEdge ∧
    (keyFirst c r s).pending = s.pending ∧ (∀ d, (keyFirst c r s).par d = s.par d) ∧ (keyFirst c r s).now = s.now ∧ (∀ d, d ≠ c → (keyFirst c r s).car d = s.car d) := by
  unfold keyFirst
  split <;> simp +contextual

/-- The key-up comes first at symbol 0 of a key still PENDING at this tick, and at no other (R114). -/
theorem keyFirst_other {c : Carrier} {r : Run} {s : State} (h : r.pos ≠ 0 ∨ (s.car c).key ≠ .pending s.tracker.tick) :
    keyFirst c r s = s := by
  unfold keyFirst keyUp
  rcases h with h | h
  · rw [if_neg h]
  · rw [if_neg (show ¬ (s.car c).key = .pending s.now from h)]; simp

/-- Every part of the state but the alarms is as before (R124). -/
@[simp] theorem recheck_keeps (c : Carrier) (p : Bool) (s : State) :
    (recheck c p s).tracker = s.tracker ∧ (recheck c p s).align = s.align ∧ (recheck c p s).batches = s.batches ∧ (recheck c p s).store = s.store ∧
    (recheck c p s).probe = s.probe ∧ (recheck c p s).link = s.link ∧ (recheck c p s).firstEdge = s.firstEdge ∧ (recheck c p s).pending = s.pending ∧
    (recheck c p s).mgmt.service = s.mgmt.service ∧ (recheck c p s).mgmt.params = s.mgmt.params ∧ (recheck c p s).mgmt.cause = s.mgmt.cause ∧ (recheck c p s).mgmt.counters = s.mgmt.counters ∧
    (∀ d, (recheck c p s).par d = s.par d) ∧ (recheck c p s).now = s.now ∧ (∀ d, (recheck c p s).car d = s.car d) := by
  unfold recheck
  split
  · split
    · cases p
      · simp
      · simp only [if_true]; split <;> simp
    · simp
  · simp

/-- A change of RF_SENSE at another tick than the check's finds nothing to redo (R124). -/
theorem recheck_other {c : Carrier} {s : State} (h : ∀ k, (s.car c).monitor.checked = some k → k.tick ≠ s.tracker.tick) (p : Bool) :
    recheck c p s = s := by
  unfold recheck
  split
  · next k hk => rw [if_neg (show ¬ k.tick = s.now from h k hk)]
  · rfl

@[simp] theorem checkCarrier_keeps (c : Carrier) (r : Run) (s : State) :
    (checkCarrier c r s).tracker = s.tracker ∧ (checkCarrier c r s).align = s.align ∧ (checkCarrier c r s).batches = s.batches ∧ (checkCarrier c r s).store = s.store ∧
    (checkCarrier c r s).probe = s.probe ∧ (checkCarrier c r s).link = s.link ∧ (checkCarrier c r s).firstEdge = s.firstEdge ∧ (checkCarrier c r s).pending = s.pending ∧
    (checkCarrier c r s).mgmt.service = s.mgmt.service ∧ (checkCarrier c r s).mgmt.params = s.mgmt.params ∧ (checkCarrier c r s).mgmt.cause = s.mgmt.cause ∧ (checkCarrier c r s).mgmt.counters = s.mgmt.counters ∧
    (∀ d, (checkCarrier c r s).par d = s.par d) ∧ (checkCarrier c r s).now = s.now ∧ (∀ d, d ≠ c → (checkCarrier c r s).car d = s.car d) := by
  unfold checkCarrier
  split <;> simp +contextual [State.modCar_car_other]

@[simp] theorem emitWord_keeps (c : Carrier) (r : Run) (s : State) :
    (emitWord c r s).tracker = s.tracker ∧ (emitWord c r s).align = s.align ∧ (emitWord c r s).batches = s.batches ∧ (emitWord c r s).store = s.store ∧
    (emitWord c r s).probe = s.probe ∧ (emitWord c r s).link = s.link ∧ (emitWord c r s).firstEdge = s.firstEdge ∧ (emitWord c r s).pending = s.pending ∧
    (emitWord c r s).mgmt.service = s.mgmt.service ∧ (emitWord c r s).mgmt.params = s.mgmt.params ∧ (emitWord c r s).mgmt.cause = s.mgmt.cause ∧ (emitWord c r s).mgmt.counters = s.mgmt.counters ∧
    (∀ d, (emitWord c r s).par d = s.par d) ∧ (emitWord c r s).now = s.now ∧ (∀ d, d ≠ c → (emitWord c r s).car d = s.car d) := by simp +contextual [emitWord]

@[simp] theorem advanceRun_keeps (c : Carrier) (r : Run) (s : State) :
    (advanceRun c r s).tracker = s.tracker ∧ (advanceRun c r s).align = s.align ∧ (advanceRun c r s).batches = s.batches ∧ (advanceRun c r s).store = s.store ∧
    (advanceRun c r s).probe = s.probe ∧ (advanceRun c r s).link = s.link ∧ (advanceRun c r s).mgmt = s.mgmt ∧ (advanceRun c r s).firstEdge = s.firstEdge ∧
    (advanceRun c r s).pending = s.pending ∧ (∀ d, (advanceRun c r s).par d = s.par d) ∧ (advanceRun c r s).now = s.now ∧ (∀ d, d ≠ c → (advanceRun c r s).car d = s.car d) := by simp +contextual [advanceRun]

@[simp] theorem spendBlock_keeps (id : BatchId) (i : Nat) (s : State) :
    (spendBlock id i s).tracker = s.tracker ∧ (spendBlock id i s).align = s.align ∧ (spendBlock id i s).batches = s.batches ∧ (spendBlock id i s).carriers = s.carriers ∧
    (spendBlock id i s).probe = s.probe ∧ (spendBlock id i s).link = s.link ∧ (spendBlock id i s).mgmt = s.mgmt ∧ (spendBlock id i s).firstEdge = s.firstEdge ∧
    (spendBlock id i s).pending = s.pending ∧ (∀ d, (spendBlock id i s).par d = s.par d) ∧ (spendBlock id i s).now = s.now ∧ (∀ d, (spendBlock id i s).car d = s.car d) := by
  unfold spendBlock
  repeat' split
  all_goals simp +contextual

@[simp] theorem testFault_keeps (c : Carrier) (s : State) :
    (testFault c s).tracker = s.tracker ∧ (testFault c s).align = s.align ∧ (testFault c s).batches = s.batches ∧ (testFault c s).store = s.store ∧
    (testFault c s).probe = s.probe ∧ (testFault c s).link = s.link ∧ (testFault c s).firstEdge = s.firstEdge ∧ (testFault c s).pending = s.pending ∧
    (testFault c s).mgmt.service = s.mgmt.service ∧ (testFault c s).mgmt.params = s.mgmt.params ∧ (testFault c s).mgmt.cause = s.mgmt.cause ∧ (testFault c s).mgmt.counters = s.mgmt.counters ∧
    (∀ d, (testFault c s).par d = s.par d) ∧ (testFault c s).now = s.now ∧ (∀ d, d ≠ c → (testFault c s).car d = s.car d) := by simp +contextual [testFault, State.modCar_car_other]

@[simp] theorem guardFault_keeps (c : Carrier) (r : Run) (id : BatchId) (s : State) :
    (guardFault c r id s).tracker = s.tracker ∧ (guardFault c r id s).align = s.align ∧ (guardFault c r id s).probe = s.probe ∧ (guardFault c r id s).link = s.link ∧
    (guardFault c r id s).firstEdge = s.firstEdge ∧ (guardFault c r id s).pending = s.pending ∧ (guardFault c r id s).mgmt.service = s.mgmt.service ∧ (guardFault c r id s).mgmt.params = s.mgmt.params ∧
    (guardFault c r id s).mgmt.cause = s.mgmt.cause ∧ (guardFault c r id s).mgmt.counters = s.mgmt.counters ∧ (∀ d, (guardFault c r id s).par d = s.par d) ∧ (guardFault c r id s).now = s.now := by simp [guardFault]

@[simp] theorem closeBlock_keeps (c : Carrier) (r : Run) (id : BatchId) (i : Nat) (s : State) :
    (closeBlock c r id i s).tracker = s.tracker ∧ (closeBlock c r id i s).align = s.align ∧ (closeBlock c r id i s).probe = s.probe ∧ (closeBlock c r id i s).link = s.link ∧
    (closeBlock c r id i s).firstEdge = s.firstEdge ∧ (closeBlock c r id i s).pending = s.pending ∧ (closeBlock c r id i s).mgmt.service = s.mgmt.service ∧ (closeBlock c r id i s).mgmt.params = s.mgmt.params ∧
    (closeBlock c r id i s).mgmt.cause = s.mgmt.cause ∧ (closeBlock c r id i s).mgmt.counters = s.mgmt.counters ∧ (∀ d, (closeBlock c r id i s).par d = s.par d) ∧ (closeBlock c r id i s).now = s.now := by
  unfold closeBlock
  repeat' split
  all_goals simp +contextual

@[simp] theorem emitSymbol_keeps (c : Carrier) (r : Run) (s : State) :
    (emitSymbol c r s).tracker = s.tracker ∧ (emitSymbol c r s).align = s.align ∧ (emitSymbol c r s).probe = s.probe ∧ (emitSymbol c r s).link = s.link ∧
    (emitSymbol c r s).firstEdge = s.firstEdge ∧ (emitSymbol c r s).pending = s.pending ∧ (emitSymbol c r s).mgmt.service = s.mgmt.service ∧ (emitSymbol c r s).mgmt.params = s.mgmt.params ∧
    (emitSymbol c r s).mgmt.cause = s.mgmt.cause ∧ (emitSymbol c r s).mgmt.counters = s.mgmt.counters ∧ (∀ d, (emitSymbol c r s).par d = s.par d) ∧ (emitSymbol c r s).now = s.now := by
  unfold emitSymbol
  repeat' split
  all_goals simp +contextual

@[simp] theorem settleRun_keeps (c : Carrier) (r : Run) (s : State) :
    (settleRun c r s).tracker = s.tracker ∧ (settleRun c r s).align = s.align ∧ (settleRun c r s).probe = s.probe ∧ (settleRun c r s).link = s.link ∧
    (settleRun c r s).mgmt = s.mgmt ∧ (settleRun c r s).firstEdge = s.firstEdge ∧ (settleRun c r s).pending = s.pending ∧ (∀ d, (settleRun c r s).par d = s.par d) ∧
    (settleRun c r s).now = s.now := by
  unfold settleRun
  dsimp only
  repeat' split
  all_goals simp

@[simp] theorem startTail_keeps (c : Carrier) (s : State) :
    (startTail c s).tracker = s.tracker ∧ (startTail c s).align = s.align ∧ (startTail c s).batches = s.batches ∧ (startTail c s).store = s.store ∧
    (startTail c s).probe = s.probe ∧ (startTail c s).link = s.link ∧ (startTail c s).mgmt = s.mgmt ∧ (startTail c s).firstEdge = s.firstEdge ∧
    (startTail c s).pending = s.pending ∧ (∀ d, (startTail c s).par d = s.par d) ∧ (startTail c s).now = s.now ∧ (∀ d, d ≠ c → (startTail c s).car d = s.car d) := by
  unfold startTail
  repeat' split
  all_goals simp +contextual [State.modCar_car_other]

@[simp] theorem seeRf_keeps (c : Carrier) (p : Bool) (s : State) :
    (seeRf c p s).tracker = s.tracker ∧ (seeRf c p s).align = s.align ∧ (seeRf c p s).batches = s.batches ∧ (seeRf c p s).store = s.store ∧
    (seeRf c p s).carriers = s.carriers ∧ (seeRf c p s).link = s.link ∧ (seeRf c p s).mgmt = s.mgmt ∧ (seeRf c p s).firstEdge = s.firstEdge ∧
    (seeRf c p s).pending = s.pending ∧ (∀ d, (seeRf c p s).par d = s.par d) ∧ (seeRf c p s).now = s.now ∧ (∀ d, (seeRf c p s).car d = s.car d) := by
  unfold seeRf
  repeat' split
  all_goals simp +contextual

/-! ### The Management Unit and the table roll: what their operations leave -/

@[simp] theorem refreshWords_keeps (s : State) :
    (refreshWords s).tracker = s.tracker ∧ (refreshWords s).align = s.align ∧ (refreshWords s).batches = s.batches ∧ (refreshWords s).store = s.store ∧
    (refreshWords s).probe = s.probe ∧ (refreshWords s).link = s.link ∧ (refreshWords s).mgmt = s.mgmt ∧ (refreshWords s).firstEdge = s.firstEdge ∧
    (refreshWords s).pending = s.pending ∧ (∀ d, (refreshWords s).par d = s.par d) ∧ (refreshWords s).now = s.now := by simp [refreshWords]

@[simp] theorem passOver_keeps (l : Nat) (c : Carrier) (s : State) :
    (passOver l c s).tracker = s.tracker ∧ (passOver l c s).align = s.align ∧ (passOver l c s).batches = s.batches ∧ (passOver l c s).store = s.store ∧
    (passOver l c s).probe = s.probe ∧ (passOver l c s).link = s.link ∧ (passOver l c s).mgmt = s.mgmt ∧ (passOver l c s).firstEdge = s.firstEdge ∧
    (passOver l c s).pending = s.pending ∧ (∀ d, (passOver l c s).par d = s.par d) ∧ (passOver l c s).now = s.now ∧ (∀ d, d ≠ c → (passOver l c s).car d = s.car d) := by
  unfold passOver
  dsimp only
  split <;> simp +contextual

@[simp] theorem loadDelays_keeps (body : List Byte) (s : State) :
    (loadDelays body s).tracker = s.tracker ∧ (loadDelays body s).batches = s.batches ∧ (loadDelays body s).store = s.store ∧ (loadDelays body s).carriers = s.carriers ∧
    (loadDelays body s).probe = s.probe ∧ (loadDelays body s).link = s.link ∧ (loadDelays body s).mgmt = s.mgmt ∧ (loadDelays body s).firstEdge = s.firstEdge ∧
    (loadDelays body s).pending = s.pending ∧ (∀ d, (loadDelays body s).par d = s.par d) ∧ (loadDelays body s).now = s.now ∧ (∀ d, (loadDelays body s).car d = s.car d) := by simp [loadDelays]

end Sys2Proof.Machine
end

