-- ==== Sys2Proof/Laws/Effects.lean ====
section
/-! SUPPORT. What each shared operation can do, said once: records, ends, hand-over, release, flush, frames and requests. -/

namespace Sys2Proof.Machine

open Sys2Proof.Safety

/-! ### Records of the Batch Table (R58) -/

/-- The record found has the id asked for and is in the table. -/
theorem findBatch_some {id : BatchId} {s : State} {b : Batch} (h : findBatch id s = some b) : b.id = id ∧ b ∈ s.batches := by
  unfold findBatch at h
  exact ⟨by simpa using List.find?_some h, List.mem_of_find?_eq_some h⟩

theorem findBatch_none {id : BatchId} {s : State} : findBatch id s = none ↔ ∀ b ∈ s.batches, b.id ≠ id := by
  simp [findBatch]

/-- In a table without equal ids a record of the table is the one found under its id. -/
theorem findBatch_of_mem {s : State} (h : TableOrdered s) {b : Batch} (hb : b ∈ s.batches) : findBatch b.id s = some b := by
  obtain ⟨h, -⟩ := h
  unfold findBatch
  generalize s.batches = l at h hb
  induction l with
  | nil => simp at hb
  | cons x xs ih =>
    rw [List.pairwise_cons] at h
    rcases List.mem_cons.1 hb with rfl | hb
    · simp
    · have : x.id ≠ b.id := fun e => by have := h.1 b hb; rw [e] at this; exact Nat.lt_irrefl _ this
      rw [List.find?_cons_of_neg (by simpa using this)]
      exact ih h.2 hb

theorem findBatch_congr {s t : State} (h : t.batches = s.batches) (id : BatchId) : findBatch id t = findBatch id s := by
  unfold findBatch; rw [h]

/-- A changed record is found changed, and every other as before; the change keeps ids. -/
theorem findBatch_modBatch {id : BatchId} {f : Batch → Batch} (hf : ∀ b, (f b).id = b.id) (s : State) (x : BatchId) :
    findBatch x (modBatch id f s) = if x = id then (findBatch x s).map f else findBatch x s := by
  unfold findBatch modBatch
  simp only [State.setBatches_batches, List.find?_map]
  have hc : (fun b : Batch => decide (b.id = x)) ∘ (fun b => if b.id = id then f b else b) = fun b => decide (b.id = x) := by
    funext b; simp only [Function.comp]; split <;> simp [hf]
  rw [hc]
  cases h : List.find? (fun b : Batch => decide (b.id = x)) s.batches with
  | none => simp
  | some b =>
    have hb : b.id = x := by simpa using List.find?_some h
    by_cases hx : x = id
    · simp [hb, hx]
    · simp [hb, hx]

/-- A removed record is found no more, and every other as before (R60). -/
theorem findBatch_removeBatch (id : BatchId) (s : State) (x : BatchId) :
    findBatch x (removeBatch id s) = if x = id then none else findBatch x s := by
  unfold findBatch removeBatch
  simp only [State.setBatches_batches]
  split
  · next h => subst h; simp
  · next h =>
    rw [List.find?_filter]
    congr 1; funext b
    by_cases hb : b.id = x <;> simp [hb, h]

theorem mem_insertRecord {b x : Batch} {l : List Batch} : x ∈ insertRecord b l ↔ x = b ∨ x ∈ l := by
  induction l with
  | nil => simp [insertRecord]
  | cons y ys ih =>
    simp only [insertRecord]
    split
    · simp
    · simp [ih]; tauto

/-- An added record is found under its id, and every other as before (R69). -/
theorem findBatch_addBatch {b : Batch} {s : State} (h : findBatch b.id s = none) (x : BatchId) :
    findBatch x (addBatch b s) = if x = b.id then some b else findBatch x s := by
  unfold findBatch addBatch at *
  simp only [State.setBatches_batches]
  generalize s.batches = l at h
  induction l with
  | nil => by_cases hx : x = b.id <;> simp [insertRecord, hx]; exact fun e => hx e.symm
  | cons y ys ih =>
    simp only [List.find?_eq_none] at h
    have hy : y.id ≠ b.id := by simpa using h y (by simp)
    have ih := ih (by simp only [List.find?_eq_none]; exact fun z hz => h z (List.mem_cons_of_mem _ hz))
    simp only [insertRecord]
    split
    · by_cases hx : x = b.id
      · simp [hx]
      · rw [List.find?_cons_of_neg (by simpa using fun e => hx e.symm), if_neg hx]
    · by_cases hx : y.id = x
      · have : x ≠ b.id := fun e => hy (by rw [hx, e])
        simp [hx, this]
      · rw [List.find?_cons_of_neg (by simpa using hx), ih, List.find?_cons_of_neg (by simpa using hx)]

/-! ### The end of a batch (R60) -/

@[simp] theorem countEnd_sched (c d : Carrier) (why : EndReason) (s : State) :
    ((countEnd c why s).car d).sched = (s.car d).sched ∧ ((countEnd c why s).car d).maps = (s.car d).maps ∧
    ((countEnd c why s).car d).timer = (s.car d).timer ∧ ((countEnd c why s).car d).key = (s.car d).key ∧
    ((countEnd c why s).car d).word = (s.car d).word ∧ ((countEnd c why s).car d).power = (s.car d).power ∧
    ((countEnd c why s).car d).monitor = (s.car d).monitor ∧ ((countEnd c why s).car d).marker = (s.car d).marker ∧
    ((countEnd c why s).car d).load = (s.car d).load ∧ ((countEnd c why s).car d).guardMarker = (s.car d).guardMarker ∧
    ((countEnd c why s).car d).guardArmed = (s.car d).guardArmed := by
  unfold countEnd countSent countDropped modCounters
  split <;> simp only [State.modCar_car] <;> split <;> simp_all

/-- The counters after an end: SENT for the reason SENT, DROPPED for every other (R60). -/
def endCounters (why : EndReason) (k : CarrierCounters) : CarrierCounters :=
  if why = .sent then { k with sent := satInc k.sent } else { k with dropped := satInc k.dropped }

/-- The end of a batch in the table, all of it (R60). -/
theorem endBatch_some {id : BatchId} {s : State} {b : Batch} (h : findBatch id s = some b) (why : EndReason) :
    (endBatch id why s).batches = s.batches.filter (fun x => x.id ≠ id) ∧
    (endBatch id why s).store = (freeBlocks b.blocks s).store ∧
    (∀ x, findBatch x (endBatch id why s) = if x = id then none else findBatch x s) ∧
    (endBatch id why s).car b.carrier = { dropFromCarrier id (s.car b.carrier) with
      counters := endCounters why (s.car b.carrier).counters } ∧
    ∀ d, d ≠ b.carrier → (endBatch id why s).car d = s.car d := by
  have hE : endBatch id why s =
      countEnd b.carrier why ((removeBatch id (freeBlocks b.blocks s)).modCar b.carrier (dropFromCarrier id)) := by
    unfold endBatch; rw [h]
  refine ⟨?_, ?_, ?_, ?_, ?_⟩
  · rw [hE]; simp [removeBatch]
  · rw [hE]; simp
  · intro x
    rw [hE, findBatch_congr (t := countEnd b.carrier why _) (countEnd_keeps _ _ _).2.2.1,
      findBatch_congr (t := State.modCar _ _ _) (State.modCar_batches _ _ _), findBatch_removeBatch,
      findBatch_congr (t := freeBlocks _ _) (freeBlocks_keeps _ _).2.2.1]
  · rw [hE]
    unfold countEnd countSent countDropped modCounters endCounters
    split <;> simp [dropFromCarrier]
  · intro d hd
    rw [hE]
    simp [hd, State.modCar_car_other]

/-- A batch that is not in the table does not end. -/
theorem endBatch_none {id : BatchId} {s : State} (h : findBatch id s = none) (why : EndReason) : endBatch id why s = s := by
  unfold endBatch; rw [h]

theorem findBatch_endBatch (id : BatchId) (why : EndReason) (s : State) (x : BatchId) :
    findBatch x (endBatch id why s) = if x = id then none else findBatch x s := by
  cases h : findBatch id s with
  | none => rw [endBatch_none h]; split <;> simp_all
  | some b => exact (endBatch_some h why).2.2.1 x

/-! ### The hand-over (R96) -/

/-- The hand-over happens exactly with no batch on air and one incoming. -/
theorem handOver_some {c : Carrier} {s : State} {id : BatchId} (ha : (s.car c).sched.onAir = none)
    (hi : (s.car c).sched.incoming = some id) :
    handOver c s = modBatch id (fun b => { b with state := .onAir })
      (modSched c (fun x => { x with
        onAir := some id, stop := none, incoming := none, stack := x.stack.filter fun y => y ≠ id }) s) := by
  unfold handOver; rw [ha, hi]

theorem handOver_none {c : Carrier} {s : State} (h : (s.car c).sched.onAir ≠ none ∨ (s.car c).sched.incoming = none) :
    handOver c s = s := by
  unfold handOver
  split
  · next ha hi => rcases h with h | h <;> simp_all
  · rfl

/-! ### Codes of slots (R100 to R102) -/

/-- A code given to a slot that is open reaches the entries of that slot alone. -/
theorem assignIn_open {sl : SlotRef} {slots : List OpenSlot} (h : ∃ x ∈ slots, x.slot = sl) (o : SlotOutcome) :
    assignIn sl o slots = coded (fun r => r = sl) o slots := by
  have h' : (slots.any fun x => x.slot = sl) = true := by simpa using h
  simp [assignIn, h', assignWhere, coded]

/-- With no slot 31 recorded early, a code for a span goes to the open slots whose span holds the tick (R101). -/
theorem spanTest_open {x : Scheduler} (h : x.closed = none) (t : Tracker) : spanTest t x = inSpan t := by simp [spanTest, h]

/-- In the span of a slot 31 recorded early it goes to slot 0 of the next cycle, and past that span as with none (R102). -/
theorem spanTest_closed {x : Scheduler} {k : ClosedSlot} (h : x.closed = some k) (t : Tracker) :
    (inClosedSpan t.tick k = true → spanTest t x = fun sl => sl.index = 0 && sl.cycle = k.slot.cycle + 1) ∧
    (inClosedSpan t.tick k = false → spanTest t x = inSpan t) := by simp +contextual [spanTest, h]

/-- A code for a span reaches the slots of its test, and no other. -/
theorem assignSpan_coded (t : Tracker) (o : SlotOutcome) (x : Scheduler) :
    assignSpan t o x = coded (spanTest t x) o x.openSlots := rfl

theorem assignSpan_open {x : Scheduler} (h : x.closed = none) (t : Tracker) (o : SlotOutcome) :
    assignSpan t o x = coded (inSpan t) o x.openSlots := by rw [assignSpan_coded, spanTest_open h]

/-- With no run of the batch held, an ending's code goes where its span says (R101). -/
theorem assignByRun_noRuns {c : Carrier} {s : State} (h : NoRuns (s.car c).timer) (code : OutcomeCode) (id : BatchId) :
    assignByRun c code id s =
      modSched c (fun x => { x with openSlots := assignSpan s.tracker { code := code, id := some id } x }) s := by
  simp [assignByRun, LaunchTimer.runs, h.1, h.2.1, h.2.2]

/-- A QUIET check that did not end at this tick, or is another carrier's, or did not pass, stands as it is (R147). -/
theorem failLate_other {now : Tick} {c : Carrier} {r : ProbeRecord}
    (h : r.carrier ≠ c ∨ r.outcome ≠ .pass ∨ r.endTick ≠ some now) : failLate now c r = r := by
  unfold failLate
  rw [if_neg]
  simp only [Bool.and_eq_true, decide_eq_true_eq]
  tauto

/-! ### Keys and the immediate release (R115, R117) -/

/-- A key dropped: RELEASED, the word C of the active bank, a presence run where RF is sensed; nothing else of the carrier. -/
theorem dropKey_same (c : Carrier) (s : State) : (dropKey c s).car c = { s.car c with
    key := .released, word := centreWord (activeWords c s)
    monitor := { (s.car c).monitor with presence := presenceAtRelease s.now (s.car c) } } := by
  unfold dropKey; rw [State.modCar_car_same]; rfl

/-- The immediate release leaves a key in PROBE alone; any other carrier has no run, a RELEASED key, the word C of the active
bank, no opening run (R117), and no stop that waits (R92, log 29). -/
theorem releaseNow_same (c : Carrier) (x : Option SlotRef) (s : State) :
    ((s.car c).key = .probe → releaseNow c x s = s) ∧
    ((s.car c).key ≠ .probe →
      (releaseNow c x s).car c = { s.car c with
        key := .released, word := centreWord (activeWords c s)
        timer := { (s.car c).timer with active := none, armed := none, finishing := none }
        sched := ((releaseNow c x s).car c).sched
        monitor := { (s.car c).monitor with presence := presenceAtRelease s.now (s.car c), opening := none } } ∧
      (∃ os, ((releaseNow c x s).car c).sched = { (s.car c).sched with openSlots := os, stop := none })) := by
  refine ⟨fun h => by unfold releaseNow; rw [if_pos h], fun h => ?_⟩
  have hrun : ∀ (l : List Run) (u : State), (u.car c).key = (s.car c).key → ∃ os,
      (l.foldl (fun s r => cutRun c r s) u).car c =
        { u.car c with sched := { (u.car c).sched with openSlots := os } } := by
    intro l
    induction l with
    | nil => intro u _; exact ⟨_, rfl⟩
    | cons r rs ih =>
      intro u hu
      obtain ⟨os, h1⟩ := ih (cutRun c r u) (by simp [cutRun, assignCode, modSched, hu])
      refine ⟨os, ?_⟩
      rw [List.foldl_cons, h1]
      simp [cutRun, assignCode, modSched]
  have hback : ∀ (l : List Run) (u : State), (l.foldl (fun s r => setBack r s) u).car c = u.car c :=
    fun l u => foldl_keeps (fun t => t.car c) (by simp) l u
  obtain ⟨os, h1⟩ := hrun (((s.car c).timer.runs).filter fun r => some r.slot ≠ x) s rfl
  have halign : ∀ (l : List Run) (u : State), (l.foldl (fun s r => setBack r s) u).align = u.align :=
    fun l u => foldl_keeps (fun t => t.align) (by simp) l u
  have halign' : ∀ (l : List Run) (u : State), (l.foldl (fun s r => cutRun c r s) u).align = u.align :=
    fun l u => foldl_keeps (fun t => t.align) (by simp) l u
  have hnow : ∀ (l : List Run) (u : State), (l.foldl (fun s r => setBack r s) u).now = u.now :=
    fun l u => foldl_keeps (fun t => t.now) (by simp) l u
  have hnow' : ∀ (l : List Run) (u : State), (l.foldl (fun s r => cutRun c r s) u).now = u.now :=
    fun l u => foldl_keeps (fun t => t.now) (by simp) l u
  have key : (releaseNow c x s).car c = { s.car c with
      key := .released, word := centreWord (activeWords c s)
      timer := { (s.car c).timer with active := none, armed := none, finishing := none }
      sched := { (s.car c).sched with openSlots := os, stop := none }
      monitor := { (s.car c).monitor with presence := presenceAtRelease s.now (s.car c), opening := none } } := by
    unfold releaseNow
    rw [if_neg h]
    simp only [State.modCar_car_same, dropKey_same, modTimer, hback, h1, activeWords, activeRecord, State.modCar_align, halign,
      halign', State.modCar_now, hnow, hnow', presenceAtRelease]
  refine ⟨by rw [key], os, by rw [key]⟩

/-! ### The own queue (R159, R160) -/

/-- A frame offered joins the own queue while it holds fewer than 8, else OWN_DROPS counts it. -/
theorem offerOwn_room {s : State} (h : s.link.own.length < 8) (f : Frame) :
    offerOwn f s = s.setLink (chooseIfIdle { s.link with own := s.link.own ++ [f] }) := by
  unfold offerOwn; exact if_pos h

theorem offerOwn_full {s : State} (h : 8 ≤ s.link.own.length) (f : Frame) : offerOwn f s = countOwnDrop s := by
  unfold offerOwn; exact if_neg (Nat.not_lt.2 h)

/-- What choosing changes: `chosen` alone. -/
@[simp] theorem chooseIfIdle_keeps (l : Link) :
    (chooseIfIdle l).own = l.own ∧ (chooseIfIdle l).relay = l.relay ∧ (chooseIfIdle l).sending = l.sending ∧
    (chooseIfIdle l).turn = l.turn ∧ (chooseIfIdle l).straps = l.straps ∧ (chooseIfIdle l).siteAddress = l.siteAddress ∧
    (chooseIfIdle l).rxUp = l.rxUp ∧ (chooseIfIdle l).rxDown = l.rxDown ∧ (chooseIfIdle l).repeatStore = l.repeatStore ∧
    (chooseIfIdle l).repeating = l.repeating := by
  unfold chooseIfIdle; split <;> simp

/-! ### Frames received on UP (R153 to R157, R165) -/

/-- A frame the part takes reaches its owner in the state in which it has been heard. -/
theorem receiveUp_takes {kind : Byte} {f : RxFrame} {s : State} (h : Takes kind f s) (take : Frame → State → State) :
    receiveUp kind take f s = take (f.withKind kind) (heard kind f s) := by
  obtain ⟨hg, h0, hd⟩ := h
  unfold receiveUp heard
  simp only [hg, Bool.not_true, Bool.false_eq_true, if_false, if_neg h0]
  by_cases hb : f.dest = 4095
  · simp [hb, Config.broadcast, repeatFrame]
  · have hs : f.dest = s.link.siteAddress := hd.resolve_left hb
    rw [if_neg (show ¬ f.dest = Config.broadcast from hb)]
    refine (if_pos (show f.dest = (s.setLink { s.link with rxUp := .hunt }).link.siteAddress from hs)).trans ?_
    rw [if_neg hb, List.append_nil]

/-- A frame the part does not take: a bad one, one to destination 0, or one for another site. -/
theorem receiveUp_untaken {kind : Byte} {f : RxFrame} {s : State} (h : ¬ Takes kind f s) (take : Frame → State → State) :
    receiveUp kind take f s =
      (if goodFrame (f.withKind kind) = false ∨ f.dest = 0 then countBadFrame (s.setLink { s.link with rxUp := .hunt })
       else repeatFrame (f.withKind kind) (s.setLink { s.link with rxUp := .hunt })) := by
  unfold receiveUp Takes at *
  cases hg : goodFrame (f.withKind kind)
  · simp [hg]
  · by_cases h0 : f.dest = 0
    · simp [hg, h0]
    · have h1 : f.dest ≠ 4095 := fun e => h ⟨hg, h0, .inl e⟩
      have h2 : f.dest ≠ s.link.siteAddress := fun e => h ⟨hg, h0, .inr e⟩
      simp only [hg, Bool.not_true, Bool.false_eq_true, if_false, if_neg h0]
      rw [if_neg (show ¬ f.dest = Config.broadcast from h1)]
      refine (if_neg (show ¬ f.dest = (s.setLink { s.link with rxUp := .hunt }).link.siteAddress from h2)).trans ?_
      simp only [Bool.true_eq_false, false_or, if_neg h0]

/-- The reply a taken request gets is the one its answer says (R159, R165). -/
theorem offerOwn_reply (kind : Byte) (f : RxFrame) (a : Answer) :
    offerOwn (replyFrame (f.withKind kind) a) a.state = replied kind f (replyOctet a.code) a.content a.state := by
  have hr : replyFrame (f.withKind kind) a = replyTo kind f (replyOctet a.code) a.content a.state := by
    unfold replyFrame replyTo flagsOctet
    cases attention a.state <;> rfl
  unfold offerOwn replied
  rw [hr]
  rfl

/-- A taken request long enough for its layout is answered by its owner. -/
theorem takeRequest_owner {kind : Byte} {f : RxFrame} {s : State} (h : Takes kind f s) {len : Nat} (hl : len ≤ f.body.length)
    (owner : List Byte → State → Answer) {a : Answer} (ha : owner f.body (requested kind f s) = a) :
    receiveUp kind (takeRequest len owner) f s = replied kind f (replyOctet a.code) a.content a.state := by
  rw [receiveUp_takes h]
  unfold takeRequest judgeRequest
  have : ¬ (f.withKind kind).body.length < len := Nat.not_lt.2 hl
  rw [if_neg this]
  show offerOwn (replyFrame (f.withKind kind) (owner f.body (requested kind f s))) (owner f.body (requested kind f s)).state = _
  rw [ha, offerOwn_reply]

/-- A taken request shorter than its layout is answered BAD_ARGUMENT. -/
theorem takeRequest_short {kind : Byte} {f : RxFrame} {s : State} (h : Takes kind f s) {len : Nat} (hl : f.body.length < len)
    (owner : List Byte → State → Answer) :
    receiveUp kind (takeRequest len owner) f s = replied kind f 0x02 [] (requested kind f s) := by
  rw [receiveUp_takes h]
  unfold takeRequest judgeRequest
  rw [if_pos (show (f.withKind kind).body.length < len from hl), offerOwn_reply]
  rfl

/-- A taken traffic frame of its layout's length reaches its owner, counted; any other length counts as unmatched. -/
theorem takeTraffic_owner {k : TrafficKind} {kind : Byte} {f : RxFrame} {s : State} (h : Takes kind f s) {len : Nat}
    (owner : List Byte → State → State) :
    receiveUp kind (takeTraffic k len owner) f s =
      if f.body.length = len then owner f.body (carried k kind f s) else countUnmatched k (carried k kind f s) := by
  rw [receiveUp_takes h]; rfl

/-- What hearing, counting and carrying leave: everything but the link and the part-wide counters. -/
@[simp] theorem heard_keeps (kind : Byte) (f : RxFrame) (s : State) :
    (heard kind f s).tracker = s.tracker ∧ (heard kind f s).align = s.align ∧ (heard kind f s).batches = s.batches ∧
    (heard kind f s).store = s.store ∧ (heard kind f s).carriers = s.carriers ∧ (heard kind f s).probe = s.probe ∧
    (heard kind f s).mgmt = s.mgmt ∧ (heard kind f s).firstEdge = s.firstEdge ∧ (heard kind f s).pending = s.pending ∧
    (∀ c, (heard kind f s).car c = s.car c) ∧ (∀ c, (heard kind f s).par c = s.par c) ∧ (heard kind f s).now = s.now ∧
    (heard kind f s).link.own = s.link.own ∧ (heard kind f s).link.relay = s.link.relay ∧
    (heard kind f s).link.siteAddress = s.link.siteAddress := by
  simp [heard]

@[simp] theorem requested_keeps (kind : Byte) (f : RxFrame) (s : State) :
    (requested kind f s).tracker = s.tracker ∧ (requested kind f s).align = s.align ∧
    (requested kind f s).batches = s.batches ∧ (requested kind f s).store = s.store ∧
    (requested kind f s).carriers = s.carriers ∧ (requested kind f s).probe = s.probe ∧
    (requested kind f s).link = (heard kind f s).link ∧ (requested kind f s).firstEdge = s.firstEdge ∧
    (requested kind f s).pending = s.pending ∧ (requested kind f s).mgmt.service = s.mgmt.service ∧
    (requested kind f s).mgmt.params = s.mgmt.params ∧ (requested kind f s).mgmt.alarms = s.mgmt.alarms ∧
    (requested kind f s).mgmt.cause = s.mgmt.cause ∧ (∀ c, (requested kind f s).car c = s.car c) ∧
    (∀ c, (requested kind f s).par c = s.par c) ∧ (requested kind f s).now = s.now := by
  simp [requested]

@[simp] theorem carried_keeps (k : TrafficKind) (kind : Byte) (f : RxFrame) (s : State) :
    (carried k kind f s).tracker = s.tracker ∧ (carried k kind f s).align = s.align ∧
    (carried k kind f s).batches = s.batches ∧ (carried k kind f s).store = s.store ∧
    (carried k kind f s).carriers = s.carriers ∧ (carried k kind f s).probe = s.probe ∧
    (carried k kind f s).link = (heard kind f s).link ∧ (carried k kind f s).firstEdge = s.firstEdge ∧
    (carried k kind f s).pending = s.pending ∧ (carried k kind f s).mgmt.service = s.mgmt.service ∧
    (carried k kind f s).mgmt.params = s.mgmt.params ∧ (carried k kind f s).mgmt.alarms = s.mgmt.alarms ∧
    (carried k kind f s).mgmt.cause = s.mgmt.cause ∧ (∀ c, (carried k kind f s).car c = s.car c) ∧
    (∀ c, (carried k kind f s).par c = s.par c) ∧ (carried k kind f s).now = s.now := by
  simp [carried]

end Sys2Proof.Machine
end

