-- ==== Sys2Proof/Laws/Blocks.lean ====
section
/-! SUPPORT. The operations that end, change and fill records keep the store blocks accounted for (R58, R60, R70, R80). -/

namespace Sys2Proof.Machine

open Sys2Proof.Safety

/-- The account rests on the table and the store alone. -/
theorem blocksAccounted_congr {s t : State} (hb : t.batches = s.batches) (hs : t.store = s.store) (h : BlocksAccounted s) :
    BlocksAccounted t := by
  unfold BlocksAccounted StoreCanonical TableOrdered heldBlocks readBlock at *
  rw [hb, hs]; exact h

/-- The blocks a block list holds. -/
def heldIn (bs : List (Option Nat)) : List Nat := bs.filterMap fun x => x

theorem mem_heldIn {bs : List (Option Nat)} {n : Nat} : n ∈ heldIn bs ↔ some n ∈ bs := by simp [heldIn]

/-- A table split at a record: the record's id is that of no other, and filtering or changing it touches it alone. -/
theorem table_split {s : State} (h : TableOrdered s) {b : Batch} (hb : b ∈ s.batches) :
    ∃ l r, s.batches = l ++ b :: r ∧ (∀ x ∈ l, x.id ≠ b.id) ∧ (∀ x ∈ r, x.id ≠ b.id) ∧
      s.batches.filter (fun x => x.id ≠ b.id) = l ++ r ∧
      ∀ f : Batch → Batch, s.batches.map (fun x => if x.id = b.id then f x else x) = l ++ f b :: r := by
  obtain ⟨l, r, hlr⟩ := List.append_of_mem hb
  have hp := h.1
  rw [hlr, List.pairwise_append, List.pairwise_cons] at hp
  have hl : ∀ x ∈ l, x.id ≠ b.id := fun x hx e => by
    have := hp.2.2 x hx b (by simp); rw [e] at this; exact Nat.lt_irrefl _ this
  have hr : ∀ x ∈ r, x.id ≠ b.id := fun x hx e => by
    have := hp.2.1.1 x hx; rw [e] at this; exact Nat.lt_irrefl _ this
  refine ⟨l, r, hlr, hl, hr, ?_, fun f => ?_⟩
  · rw [hlr, List.filter_append, List.filter_cons_of_neg (by simp), List.filter_eq_self.2 (by simpa using hl),
      List.filter_eq_self.2 (by simpa using hr)]
  · rw [hlr, List.map_append, List.map_cons, if_pos rfl]
    congr 1
    · conv => rhs; rw [← List.map_id l]
      exact List.map_congr_left fun x hx => if_neg (hl x hx)
    · congr 1
      conv => rhs; rw [← List.map_id r]
      exact List.map_congr_left fun x hx => if_neg (hr x hx)

/-- Records changed in nothing but their state, progress and marks keep the table ordered. -/
theorem tableOrdered_modBatch {s : State} (h : TableOrdered s) (id : BatchId) {f : Batch → Batch}
    (hf : ∀ b, (f b).id = b.id ∧ (f b).blocks.length = b.blocks.length ∧ (f b).slots = b.slots ∧ (f b).rate = b.rate) :
    TableOrdered (modBatch id f s) := by
  obtain ⟨h1, h2⟩ := h
  refine ⟨?_, ?_⟩
  · unfold modBatch
    rw [State.setBatches_batches, List.pairwise_map]
    refine h1.imp ?_
    intro a b hab
    split <;> split <;> simpa [hf] using hab
  · unfold modBatch
    intro b hb
    rw [State.setBatches_batches, List.mem_map] at hb
    obtain ⟨x, hx, rfl⟩ := hb
    split
    · rw [(hf x).2.1, (hf x).2.2.1, (hf x).2.2.2]; exact h2 x hx
    · exact h2 x hx

theorem blocksAccounted_modBatch {s : State} (h : BlocksAccounted s) (id : BatchId) {f : Batch → Batch}
    (hf : ∀ b, (f b).id = b.id ∧ (f b).blocks = b.blocks ∧ (f b).slots = b.slots ∧ (f b).rate = b.rate) :
    BlocksAccounted (modBatch id f s) := by
  obtain ⟨h1, h2, h3⟩ := h
  have hh : heldBlocks (modBatch id f s) = heldBlocks s := by
    unfold heldBlocks modBatch
    rw [State.setBatches_batches, List.flatMap_map]
    congr 1; funext b; split
    · rw [(hf b).2.1]
    · rfl
  refine ⟨h1, tableOrdered_modBatch h2 id fun b => ⟨(hf b).1, by rw [(hf b).2.1], (hf b).2.2⟩, ?_⟩
  rw [hh]; exact h3

theorem tableOrdered_endBatch {s : State} (h : TableOrdered s) (id : BatchId) (why : EndReason) :
    TableOrdered (endBatch id why s) := by
  cases hb : findBatch id s with
  | none => rw [endBatch_none hb]; exact h
  | some b =>
    unfold TableOrdered
    rw [(endBatch_some hb why).1]
    exact ⟨h.1.filter _, fun x hx => h.2 x (List.mem_of_mem_filter hx)⟩

/-- The end of a batch keeps the account: its blocks are FREE and counted again (R60, R80). -/
theorem blocksAccounted_endBatch {s : State} (h : BlocksAccounted s) (id : BatchId) (why : EndReason) :
    BlocksAccounted (endBatch id why s) := by
  cases hb : findBatch id s with
  | none => rw [endBatch_none hb]; exact h
  | some b =>
    obtain ⟨h1, h2, h3, h4, h5, h6⟩ := h
    obtain ⟨hid, hmem⟩ := findBatch_some hb
    obtain ⟨l, r, hlr, -, -, hfl, -⟩ := table_split h2 hmem
    obtain ⟨e1, e2, -⟩ := endBatch_some hb why
    rw [← hid, hfl] at e1
    rw [hid] at e1
    have hs : heldBlocks s = (l.flatMap fun b => heldIn b.blocks) ++ (heldIn b.blocks ++ r.flatMap fun b => heldIn b.blocks) := by
      unfold heldBlocks; rw [hlr]; simp [heldIn]
    have ht : heldBlocks (endBatch id why s) = (l.flatMap fun b => heldIn b.blocks) ++ r.flatMap fun b => heldIn b.blocks := by
      unfold heldBlocks; rw [e1]; simp [heldIn]
    have hperm : (heldBlocks s).Perm (heldIn b.blocks ++ heldBlocks (endBatch id why s)) := by
      rw [hs, ht]
      refine (List.perm_append_comm_assoc _ _ _).trans ?_
      exact List.Perm.refl _
    have hnd := hperm.nodup_iff.1 h3
    rw [List.nodup_append] at hnd
    have hlt : ∀ n, some n ∈ b.blocks → n < Config.storeSize := fun n hn =>
      h5 n (hperm.symm.subset (List.mem_append_left _ (mem_heldIn.2 hn)))
    have htag : ∀ k, (readBlock k (endBatch id why s)).tag = if some k ∈ b.blocks then .free else (readBlock k s).tag := by
      intro k
      have := tag_freeBlocks (s := s) h1 hlt k
      unfold readBlock at *
      rw [e2]; exact this
    refine ⟨?_, tableOrdered_endBatch h2 id why, hnd.2.1, ?_, ?_, ?_⟩
    · unfold StoreCanonical; rw [e2]; exact freeBlocks_wf h1 _
    · intro n hn
      rw [htag]
      by_cases hk : some n ∈ b.blocks
      · simp only [hk, if_true, true_iff]
        exact fun hc => hnd.2.2 n (mem_heldIn.2 hk) n hc rfl
      · simp only [hk, if_false, h4 n hn]
        rw [hperm.mem_iff, List.mem_append, mem_heldIn]
        simp [hk]
    · exact fun n hn => h5 n (hperm.symm.subset (List.mem_append_right _ hn))
    · rw [e2, freeCount_freeBlocks]
      have := hperm.length_eq
      rw [List.length_append] at this
      unfold heldIn at this
      omega

/-- A block taken into an empty position keeps the account (R70, R80). -/
theorem blocksAccounted_allocate {s : State} (h : BlocksAccounted s) {b : Batch} (hb : findBatch b.id s = some b) {i n : Nat}
    (hi : i < b.blocks.length) (he : b.blocks.getD i none = none) (hn : n < 2048) (hf : (readBlock n s).tag = .free)
    (codes : BitVec 80) {f : Batch → Batch}
    (hfb : ∀ x, (f x).id = x.id ∧ (f x).slots = x.slots ∧ (f x).rate = x.rate ∧ (f x).blocks = x.blocks.set i (some n)) :
    BlocksAccounted (modBatch b.id f (allocate n b.id i codes s)) := by
  obtain ⟨h1, h2, h3, h4, h5, h6⟩ := h
  obtain ⟨l, r, hlr, -, -, -, hmap⟩ := table_split h2 (findBatch_some hb).2
  have hbt : (modBatch b.id f (allocate n b.id i codes s)).batches = l ++ f b :: r := by
    unfold modBatch; rw [State.setBatches_batches, (allocate_keeps _ _ _ _ _).2.2.1]; exact hmap f
  have hst : (modBatch b.id f (allocate n b.id i codes s)).store = (allocate n b.id i codes s).store := by simp
  have hnone : b.blocks[i]? = some none := by
    rw [List.getD_eq_getElem?_getD] at he
    rw [List.getElem?_eq_getElem hi] at he ⊢
    simpa using he
  have hbl : b.blocks = b.blocks.take i ++ none :: b.blocks.drop (i + 1) := by
    conv => lhs; rw [← List.take_append_drop i b.blocks, List.drop_eq_getElem_cons hi]
    rw [List.getElem?_eq_getElem hi] at hnone
    rw [Option.some.inj hnone]
  have hp1 : (heldIn (b.blocks.set i (some n))).Perm (n :: heldIn b.blocks) := by
    have hset : b.blocks.set i (some n) = b.blocks.take i ++ some n :: b.blocks.drop (i + 1) := by
      rw [List.set_eq_take_append_cons_drop, if_pos hi]
    have e1 : heldIn (b.blocks.set i (some n)) = heldIn (b.blocks.take i) ++ n :: heldIn (b.blocks.drop (i + 1)) := by
      rw [hset]; simp [heldIn]
    have e2 : heldIn b.blocks = heldIn (b.blocks.take i) ++ heldIn (b.blocks.drop (i + 1)) := by
      conv => lhs; rw [hbl]
      simp [heldIn]
    rw [e1, e2]; exact List.perm_middle
  have hperm : (heldBlocks (modBatch b.id f (allocate n b.id i codes s))).Perm (n :: heldBlocks s) := by
    have ht : heldBlocks (modBatch b.id f (allocate n b.id i codes s)) =
        (l.flatMap fun b => heldIn b.blocks) ++ (heldIn (b.blocks.set i (some n)) ++ r.flatMap fun b => heldIn b.blocks) := by
      unfold heldBlocks; rw [hbt]; simp [heldIn, (hfb b).2.2.2]
    have hs : heldBlocks s = (l.flatMap fun b => heldIn b.blocks) ++ (heldIn b.blocks ++ r.flatMap fun b => heldIn b.blocks) := by
      unfold heldBlocks; rw [hlr]; simp [heldIn]
    rw [ht, hs]
    exact (List.Perm.append_left _ (List.Perm.append_right _ hp1)).trans List.perm_middle
  have hnot : n ∉ heldBlocks s := (h4 n hn).1 hf
  have hw : s.store.wf = true := h1
  have hread : ∀ k, (readBlock k (modBatch b.id f (allocate n b.id i codes s))).tag =
      if k = n then .held b.id i else (readBlock k s).tag := by
    intro k
    have := readBlock_allocate hw hn k b.id i codes
    unfold readBlock at *
    rw [hst, this]; split <;> rfl
  refine ⟨?_, ?_, ?_, ?_, ?_, ?_⟩
  · unfold StoreCanonical; rw [hst]; exact allocate_wf hw _ _ _ _
  · exact tableOrdered_modBatch (s := allocate n b.id i codes s)
      (by unfold TableOrdered; rw [(allocate_keeps _ _ _ _ _).2.2.1]; exact h2) _
      fun x => ⟨(hfb x).1, by rw [(hfb x).2.2.2, List.length_set], (hfb x).2.1, (hfb x).2.2.1⟩
  · exact hperm.nodup_iff.2 (List.nodup_cons.2 ⟨hnot, h3⟩)
  · intro k hk
    rw [hread, hperm.mem_iff, List.mem_cons]
    by_cases hkn : k = n
    · simp [hkn]
    · simp only [hkn, if_false, false_or]; exact h4 k hk
  · intro k hk
    rcases List.mem_cons.1 (hperm.subset hk) with rfl | hk
    · exact hn
    · exact h5 k hk
  · rw [hst, hperm.length_eq, List.length_cons]
    have hlen : (heldBlocks s).length < 2048 := by
      have : (n :: heldBlocks s).length ≤ 2048 := by
        have hsub : (n :: heldBlocks s) ⊆ List.range 2048 := by
          intro k hk
          rw [List.mem_range]
          rcases List.mem_cons.1 hk with rfl | hk
          · exact hn
          · exact h5 k hk
        have := (List.nodup_cons.2 ⟨hnot, h3⟩).subperm hsub |>.length_le
        simpa using this
      simpa using this
    have hc : (allocate n b.id i codes s).store.freeCount = s.store.freeCount - 1 := by
      unfold allocate writeBlock evalStoreLow
      rw [if_pos (show n < Config.storeSize from hn)]; rfl
    rw [hc]; omega

/-- SPENT written into a held block's tag keeps the account (R80, R82). -/
theorem blocksAccounted_spendBlock {s : State} (h : BlocksAccounted s) (id : BatchId) (i : Nat) :
    BlocksAccounted (spendBlock id i s) := by
  unfold spendBlock
  split
  · next n hn =>
    obtain ⟨h1, h2, h3, h4, h5, h6⟩ := h
    have hw : s.store.wf = true := h1
    have hm : n ∈ heldBlocks s := by
      unfold blockNumber at hn
      obtain ⟨b, hb, hn⟩ := Option.bind_eq_some_iff.1 hn
      unfold heldBlocks
      rw [List.mem_flatMap]
      refine ⟨b, (findBatch_some hb).2, mem_heldIn.2 ?_⟩
      rw [List.getD_eq_getElem?_getD] at hn
      cases hx : b.blocks[i]? with
      | none => rw [hx] at hn; cases hn
      | some y => rw [hx] at hn; simp at hn; subst hn; exact List.mem_of_getElem? hx
    have hlt : n < Config.storeSize := h5 n hm
    refine ⟨writeTag_wf hw _ _, ?_, ?_, ?_, ?_, ?_⟩
    · unfold TableOrdered; rw [(writeTag_keeps _ _ _).2.2.1]; exact h2
    · unfold heldBlocks; rw [(writeTag_keeps _ _ _).2.2.1]; exact h3
    · intro k hk
      have e : heldBlocks (writeTag n .spent s) = heldBlocks s := by unfold heldBlocks; rw [(writeTag_keeps _ _ _).2.2.1]
      rw [e]
      unfold writeTag
      rw [readBlock_writeBlock hw hlt]
      by_cases hkn : k = n
      · subst hkn; simp [hm]
      · rw [if_neg hkn]; exact h4 k hk
    · unfold heldBlocks; rw [(writeTag_keeps _ _ _).2.2.1]; exact h5
    · have e : heldBlocks (writeTag n .spent s) = heldBlocks s := by unfold heldBlocks; rw [(writeTag_keeps _ _ _).2.2.1]
      rw [e]
      unfold writeTag writeBlock; rw [if_pos hlt]; exact h6
  · exact h

theorem mem_insertRecord_pairwise {b : Batch} {l : List Batch} (h : l.Pairwise fun a b => a.id.toNat < b.id.toNat)
    (hn : ∀ x ∈ l, x.id ≠ b.id) : (insertRecord b l).Pairwise fun a b => a.id.toNat < b.id.toNat := by
  induction l with
  | nil => simp [insertRecord]
  | cons x xs ih =>
    rw [List.pairwise_cons] at h
    have hx : x.id.toNat ≠ b.id.toNat := fun e => hn x (by simp) (BitVec.eq_of_toNat_eq e)
    simp only [insertRecord]
    split
    · next hlt =>
      refine List.pairwise_cons.2 ⟨fun y hy => ?_, List.pairwise_cons.2 h⟩
      rcases List.mem_cons.1 hy with rfl | hy
      · exact hlt
      · exact Nat.lt_trans hlt (h.1 y hy)
    · next hlt =>
      refine List.pairwise_cons.2 ⟨fun y hy => ?_, ih h.2 fun y hy => hn y (List.mem_cons_of_mem _ hy)⟩
      rcases mem_insertRecord.1 hy with rfl | hy
      · omega
      · exact h.1 y hy

/-- A new record with no block keeps the account (R69). -/
theorem blocksAccounted_addBatch {s : State} (h : BlocksAccounted s) {b : Batch} (hb : findBatch b.id s = none)
    (he : ∀ x ∈ b.blocks, x = none) (hl : b.blocks.length = b.slots * b.rate.blocks) : BlocksAccounted (addBatch b s) := by
  obtain ⟨h1, h2, h3, h4, h5, h6⟩ := h
  have hh : heldIn b.blocks = [] := by
    unfold heldIn; rw [List.filterMap_eq_nil_iff]; exact he
  have hperm : ∀ l : List Batch, ((insertRecord b l).flatMap fun b => heldIn b.blocks) = l.flatMap fun b => heldIn b.blocks := by
    intro l
    induction l with
    | nil => simp [insertRecord, hh]
    | cons x xs ih => simp only [insertRecord]; split <;> simp [hh, ih]
  have hheld : heldBlocks (addBatch b s) = heldBlocks s := hperm s.batches
  have hord : TableOrdered (addBatch b s) := by
    refine ⟨mem_insertRecord_pairwise h2.1 (findBatch_none.1 hb), ?_⟩
    intro x hx
    rcases mem_insertRecord.1 hx with rfl | hx
    · exact hl
    · exact h2.2 x hx
  refine ⟨h1, hord, ?_⟩
  rw [hheld]; exact ⟨h3, h4, h5, h6⟩

end Sys2Proof.Machine
end

