-- ==== Sys2Proof/Laws/Carriers.lean ====
section
/-! SUPPORT. What each operation leaves unchanged of a carrier, whichever carrier it acts on (one `@[simp]` lemma each). -/

namespace Sys2Proof.Machine

/-! ### Alarms and counters -/

@[simp] theorem latchGuardReal_car (c : Carrier) (s : State) (d : Carrier) :
    ((latchGuardReal c s).car d).maps = (s.car d).maps ∧ ((latchGuardReal c s).car d).sched = (s.car d).sched ∧ ((latchGuardReal c s).car d).timer = (s.car d).timer ∧
    ((latchGuardReal c s).car d).word = (s.car d).word ∧ ((latchGuardReal c s).car d).key = (s.car d).key ∧ ((latchGuardReal c s).car d).power = (s.car d).power ∧
    ((latchGuardReal c s).car d).monitor = (s.car d).monitor ∧ ((latchGuardReal c s).car d).marker = (s.car d).marker ∧ ((latchGuardReal c s).car d).load = (s.car d).load ∧
    ((latchGuardReal c s).car d).modPin = (s.car d).modPin ∧ ((latchGuardReal c s).car d).guardArmed = (s.car d).guardArmed ∧ ((latchGuardReal c s).car d).counters = (s.car d).counters := by
  simp only [latchGuardReal, latch_keeps, State.modCar_car]; split <;> simp_all

@[simp] theorem latchGuardTest_car (c : Carrier) (s : State) (d : Carrier) :
    ((latchGuardTest c s).car d).maps = (s.car d).maps ∧ ((latchGuardTest c s).car d).sched = (s.car d).sched ∧ ((latchGuardTest c s).car d).timer = (s.car d).timer ∧
    ((latchGuardTest c s).car d).word = (s.car d).word ∧ ((latchGuardTest c s).car d).key = (s.car d).key ∧ ((latchGuardTest c s).car d).power = (s.car d).power ∧
    ((latchGuardTest c s).car d).monitor = (s.car d).monitor ∧ ((latchGuardTest c s).car d).marker = (s.car d).marker ∧ ((latchGuardTest c s).car d).load = (s.car d).load ∧
    ((latchGuardTest c s).car d).modPin = (s.car d).modPin ∧ ((latchGuardTest c s).car d).guardArmed = (s.car d).guardArmed ∧ ((latchGuardTest c s).car d).counters = (s.car d).counters := by
  simp only [latchGuardTest, latch_keeps, State.modCar_car]; split <;> simp_all

@[simp] theorem clearMarkers_car (x : BitVec 32) (s : State) (d : Carrier) :
    ((clearMarkers x s).car d).maps = (s.car d).maps ∧ ((clearMarkers x s).car d).sched = (s.car d).sched ∧ ((clearMarkers x s).car d).timer = (s.car d).timer ∧
    ((clearMarkers x s).car d).word = (s.car d).word ∧ ((clearMarkers x s).car d).key = (s.car d).key ∧ ((clearMarkers x s).car d).power = (s.car d).power ∧
    ((clearMarkers x s).car d).monitor = (s.car d).monitor ∧ ((clearMarkers x s).car d).marker = (s.car d).marker ∧ ((clearMarkers x s).car d).load = (s.car d).load ∧
    ((clearMarkers x s).car d).modPin = (s.car d).modPin ∧ ((clearMarkers x s).car d).guardArmed = (s.car d).guardArmed ∧ ((clearMarkers x s).car d).counters = (s.car d).counters := by simp [clearMarkers]

@[simp] theorem modCounters_car (c : Carrier) (f : CarrierCounters → CarrierCounters) (s : State) (d : Carrier) :
    ((modCounters c f s).car d).maps = (s.car d).maps ∧ ((modCounters c f s).car d).sched = (s.car d).sched ∧ ((modCounters c f s).car d).timer = (s.car d).timer ∧
    ((modCounters c f s).car d).word = (s.car d).word ∧ ((modCounters c f s).car d).key = (s.car d).key ∧ ((modCounters c f s).car d).power = (s.car d).power ∧
    ((modCounters c f s).car d).monitor = (s.car d).monitor ∧ ((modCounters c f s).car d).marker = (s.car d).marker ∧ ((modCounters c f s).car d).load = (s.car d).load ∧
    ((modCounters c f s).car d).modPin = (s.car d).modPin ∧ ((modCounters c f s).car d).guardArmed = (s.car d).guardArmed ∧ ((modCounters c f s).car d).guardMarker = (s.car d).guardMarker := by
  simp only [modCounters, State.modCar_car]; split <;> simp_all

@[simp] theorem countRefused_car (c : Carrier) (r : RefuseReason) (s : State) (d : Carrier) :
    ((countRefused c r s).car d).maps = (s.car d).maps ∧ ((countRefused c r s).car d).sched = (s.car d).sched ∧ ((countRefused c r s).car d).timer = (s.car d).timer ∧
    ((countRefused c r s).car d).word = (s.car d).word ∧ ((countRefused c r s).car d).key = (s.car d).key ∧ ((countRefused c r s).car d).power = (s.car d).power ∧
    ((countRefused c r s).car d).monitor = (s.car d).monitor ∧ ((countRefused c r s).car d).marker = (s.car d).marker ∧ ((countRefused c r s).car d).load = (s.car d).load ∧
    ((countRefused c r s).car d).modPin = (s.car d).modPin ∧ ((countRefused c r s).car d).guardArmed = (s.car d).guardArmed ∧ ((countRefused c r s).car d).guardMarker = (s.car d).guardMarker := by simp [countRefused]

@[simp] theorem countSent_car (c : Carrier) (s : State) (d : Carrier) :
    ((countSent c s).car d).maps = (s.car d).maps ∧ ((countSent c s).car d).sched = (s.car d).sched ∧ ((countSent c s).car d).timer = (s.car d).timer ∧
    ((countSent c s).car d).word = (s.car d).word ∧ ((countSent c s).car d).key = (s.car d).key ∧ ((countSent c s).car d).power = (s.car d).power ∧
    ((countSent c s).car d).monitor = (s.car d).monitor ∧ ((countSent c s).car d).marker = (s.car d).marker ∧ ((countSent c s).car d).load = (s.car d).load ∧
    ((countSent c s).car d).modPin = (s.car d).modPin ∧ ((countSent c s).car d).guardArmed = (s.car d).guardArmed ∧ ((countSent c s).car d).guardMarker = (s.car d).guardMarker := by simp [countSent]

@[simp] theorem countDropped_car (c : Carrier) (s : State) (d : Carrier) :
    ((countDropped c s).car d).maps = (s.car d).maps ∧ ((countDropped c s).car d).sched = (s.car d).sched ∧ ((countDropped c s).car d).timer = (s.car d).timer ∧
    ((countDropped c s).car d).word = (s.car d).word ∧ ((countDropped c s).car d).key = (s.car d).key ∧ ((countDropped c s).car d).power = (s.car d).power ∧
    ((countDropped c s).car d).monitor = (s.car d).monitor ∧ ((countDropped c s).car d).marker = (s.car d).marker ∧ ((countDropped c s).car d).load = (s.car d).load ∧
    ((countDropped c s).car d).modPin = (s.car d).modPin ∧ ((countDropped c s).car d).guardArmed = (s.car d).guardArmed ∧ ((countDropped c s).car d).guardMarker = (s.car d).guardMarker := by simp [countDropped]

@[simp] theorem countDiscard_car (c : Carrier) (s : State) (d : Carrier) :
    ((countDiscard c s).car d).maps = (s.car d).maps ∧ ((countDiscard c s).car d).sched = (s.car d).sched ∧ ((countDiscard c s).car d).timer = (s.car d).timer ∧
    ((countDiscard c s).car d).word = (s.car d).word ∧ ((countDiscard c s).car d).key = (s.car d).key ∧ ((countDiscard c s).car d).power = (s.car d).power ∧
    ((countDiscard c s).car d).monitor = (s.car d).monitor ∧ ((countDiscard c s).car d).marker = (s.car d).marker ∧ ((countDiscard c s).car d).load = (s.car d).load ∧
    ((countDiscard c s).car d).modPin = (s.car d).modPin ∧ ((countDiscard c s).car d).guardArmed = (s.car d).guardArmed ∧ ((countDiscard c s).car d).guardMarker = (s.car d).guardMarker := by simp [countDiscard]

@[simp] theorem countClampedWord_car (c : Carrier) (s : State) (d : Carrier) :
    ((countClampedWord c s).car d).maps = (s.car d).maps ∧ ((countClampedWord c s).car d).sched = (s.car d).sched ∧ ((countClampedWord c s).car d).timer = (s.car d).timer ∧
    ((countClampedWord c s).car d).word = (s.car d).word ∧ ((countClampedWord c s).car d).key = (s.car d).key ∧ ((countClampedWord c s).car d).power = (s.car d).power ∧
    ((countClampedWord c s).car d).monitor = (s.car d).monitor ∧ ((countClampedWord c s).car d).marker = (s.car d).marker ∧ ((countClampedWord c s).car d).load = (s.car d).load ∧
    ((countClampedWord c s).car d).modPin = (s.car d).modPin ∧ ((countClampedWord c s).car d).guardArmed = (s.car d).guardArmed ∧ ((countClampedWord c s).car d).guardMarker = (s.car d).guardMarker := by simp [countClampedWord]

@[simp] theorem countLowMargin_car (c : Carrier) (s : State) (d : Carrier) :
    ((countLowMargin c s).car d).maps = (s.car d).maps ∧ ((countLowMargin c s).car d).sched = (s.car d).sched ∧ ((countLowMargin c s).car d).timer = (s.car d).timer ∧
    ((countLowMargin c s).car d).word = (s.car d).word ∧ ((countLowMargin c s).car d).key = (s.car d).key ∧ ((countLowMargin c s).car d).power = (s.car d).power ∧
    ((countLowMargin c s).car d).monitor = (s.car d).monitor ∧ ((countLowMargin c s).car d).marker = (s.car d).marker ∧ ((countLowMargin c s).car d).load = (s.car d).load ∧
    ((countLowMargin c s).car d).modPin = (s.car d).modPin ∧ ((countLowMargin c s).car d).guardArmed = (s.car d).guardArmed ∧ ((countLowMargin c s).car d).guardMarker = (s.car d).guardMarker := by simp [countLowMargin]

@[simp] theorem clearCounters_car (s : State) (d : Carrier) :
    ((clearCounters s).car d).maps = (s.car d).maps ∧ ((clearCounters s).car d).sched = (s.car d).sched ∧ ((clearCounters s).car d).timer = (s.car d).timer ∧
    ((clearCounters s).car d).word = (s.car d).word ∧ ((clearCounters s).car d).key = (s.car d).key ∧ ((clearCounters s).car d).power = (s.car d).power ∧
    ((clearCounters s).car d).monitor = (s.car d).monitor ∧ ((clearCounters s).car d).marker = (s.car d).marker ∧ ((clearCounters s).car d).load = (s.car d).load ∧
    ((clearCounters s).car d).modPin = (s.car d).modPin ∧ ((clearCounters s).car d).guardArmed = (s.car d).guardArmed ∧ ((clearCounters s).car d).guardMarker = (s.car d).guardMarker := by simp [clearCounters]

/-! ### Slots, ends and claims -/

@[simp] theorem modTimer_car (c : Carrier) (f : LaunchTimer → LaunchTimer) (s : State) (d : Carrier) :
    ((modTimer c f s).car d).maps = (s.car d).maps ∧ ((modTimer c f s).car d).sched = (s.car d).sched ∧ ((modTimer c f s).car d).word = (s.car d).word ∧
    ((modTimer c f s).car d).key = (s.car d).key ∧ ((modTimer c f s).car d).power = (s.car d).power ∧ ((modTimer c f s).car d).monitor = (s.car d).monitor ∧
    ((modTimer c f s).car d).marker = (s.car d).marker ∧ ((modTimer c f s).car d).load = (s.car d).load ∧ ((modTimer c f s).car d).modPin = (s.car d).modPin ∧
    ((modTimer c f s).car d).guardArmed = (s.car d).guardArmed ∧ ((modTimer c f s).car d).guardMarker = (s.car d).guardMarker ∧ ((modTimer c f s).car d).counters = (s.car d).counters := by
  simp only [modTimer, State.modCar_car]; split <;> simp_all

@[simp] theorem modSched_car (c : Carrier) (f : Scheduler → Scheduler) (s : State) (d : Carrier) :
    ((modSched c f s).car d).maps = (s.car d).maps ∧ ((modSched c f s).car d).timer = (s.car d).timer ∧ ((modSched c f s).car d).word = (s.car d).word ∧
    ((modSched c f s).car d).key = (s.car d).key ∧ ((modSched c f s).car d).power = (s.car d).power ∧ ((modSched c f s).car d).monitor = (s.car d).monitor ∧
    ((modSched c f s).car d).marker = (s.car d).marker ∧ ((modSched c f s).car d).load = (s.car d).load ∧ ((modSched c f s).car d).modPin = (s.car d).modPin ∧
    ((modSched c f s).car d).guardArmed = (s.car d).guardArmed ∧ ((modSched c f s).car d).guardMarker = (s.car d).guardMarker ∧ ((modSched c f s).car d).counters = (s.car d).counters := by
  simp only [modSched, State.modCar_car]; split <;> simp_all

@[simp] theorem assignCode_car (c : Carrier) (sl : SlotRef) (k : OutcomeCode) (id : Option BatchId) (s : State) (d : Carrier) :
    ((assignCode c sl k id s).car d).maps = (s.car d).maps ∧ ((assignCode c sl k id s).car d).timer = (s.car d).timer ∧ ((assignCode c sl k id s).car d).word = (s.car d).word ∧
    ((assignCode c sl k id s).car d).key = (s.car d).key ∧ ((assignCode c sl k id s).car d).power = (s.car d).power ∧ ((assignCode c sl k id s).car d).monitor = (s.car d).monitor ∧
    ((assignCode c sl k id s).car d).marker = (s.car d).marker ∧ ((assignCode c sl k id s).car d).load = (s.car d).load ∧ ((assignCode c sl k id s).car d).modPin = (s.car d).modPin ∧
    ((assignCode c sl k id s).car d).guardArmed = (s.car d).guardArmed ∧ ((assignCode c sl k id s).car d).guardMarker = (s.car d).guardMarker ∧ ((assignCode c sl k id s).car d).counters = (s.car d).counters ∧
    ((assignCode c sl k id s).car d).sched.onAir = (s.car d).sched.onAir ∧ ((assignCode c sl k id s).car d).sched.stop = (s.car d).sched.stop ∧ ((assignCode c sl k id s).car d).sched.incoming = (s.car d).sched.incoming ∧
    ((assignCode c sl k id s).car d).sched.stack = (s.car d).sched.stack ∧ ((assignCode c sl k id s).car d).sched.lastMargin = (s.car d).sched.lastMargin ∧ ((assignCode c sl k id s).car d).sched.goodStarts = (s.car d).sched.goodStarts ∧
    ((assignCode c sl k id s).car d).sched.outcomes = (s.car d).sched.outcomes ∧ ((assignCode c sl k id s).car d).sched.settled = (s.car d).sched.settled := by
  simp only [assignCode, modSched, State.modCar_car]; split <;> simp_all

@[simp] theorem assignByRun_car (c : Carrier) (k : OutcomeCode) (id : BatchId) (s : State) (d : Carrier) :
    ((assignByRun c k id s).car d).maps = (s.car d).maps ∧ ((assignByRun c k id s).car d).timer = (s.car d).timer ∧ ((assignByRun c k id s).car d).word = (s.car d).word ∧
    ((assignByRun c k id s).car d).key = (s.car d).key ∧ ((assignByRun c k id s).car d).power = (s.car d).power ∧ ((assignByRun c k id s).car d).monitor = (s.car d).monitor ∧
    ((assignByRun c k id s).car d).marker = (s.car d).marker ∧ ((assignByRun c k id s).car d).load = (s.car d).load ∧ ((assignByRun c k id s).car d).modPin = (s.car d).modPin ∧
    ((assignByRun c k id s).car d).guardArmed = (s.car d).guardArmed ∧ ((assignByRun c k id s).car d).guardMarker = (s.car d).guardMarker ∧ ((assignByRun c k id s).car d).counters = (s.car d).counters ∧
    ((assignByRun c k id s).car d).sched.onAir = (s.car d).sched.onAir ∧ ((assignByRun c k id s).car d).sched.stop = (s.car d).sched.stop ∧ ((assignByRun c k id s).car d).sched.incoming = (s.car d).sched.incoming ∧
    ((assignByRun c k id s).car d).sched.stack = (s.car d).sched.stack ∧ ((assignByRun c k id s).car d).sched.lastMargin = (s.car d).sched.lastMargin ∧ ((assignByRun c k id s).car d).sched.goodStarts = (s.car d).sched.goodStarts ∧
    ((assignByRun c k id s).car d).sched.outcomes = (s.car d).sched.outcomes ∧ ((assignByRun c k id s).car d).sched.settled = (s.car d).sched.settled := by
  unfold assignByRun modSched
  dsimp only
  split <;> simp only [State.modCar_car] <;> split <;> simp_all

@[simp] theorem recordSlots_car (c : Carrier) (p : OpenSlot → Bool) (s : State) (d : Carrier) :
    ((recordSlots c p s).car d).maps = (s.car d).maps ∧ ((recordSlots c p s).car d).timer = (s.car d).timer ∧ ((recordSlots c p s).car d).word = (s.car d).word ∧
    ((recordSlots c p s).car d).key = (s.car d).key ∧ ((recordSlots c p s).car d).power = (s.car d).power ∧ ((recordSlots c p s).car d).monitor = (s.car d).monitor ∧
    ((recordSlots c p s).car d).marker = (s.car d).marker ∧ ((recordSlots c p s).car d).load = (s.car d).load ∧ ((recordSlots c p s).car d).modPin = (s.car d).modPin ∧
    ((recordSlots c p s).car d).guardArmed = (s.car d).guardArmed ∧ ((recordSlots c p s).car d).guardMarker = (s.car d).guardMarker ∧ ((recordSlots c p s).car d).counters = (s.car d).counters ∧
    ((recordSlots c p s).car d).sched.onAir = (s.car d).sched.onAir ∧ ((recordSlots c p s).car d).sched.stop = (s.car d).sched.stop ∧ ((recordSlots c p s).car d).sched.incoming = (s.car d).sched.incoming ∧
    ((recordSlots c p s).car d).sched.stack = (s.car d).sched.stack ∧ ((recordSlots c p s).car d).sched.lastMargin = (s.car d).sched.lastMargin ∧ ((recordSlots c p s).car d).sched.goodStarts = (s.car d).sched.goodStarts ∧
    ((recordSlots c p s).car d).sched.settled = (s.car d).sched.settled := by
  simp only [recordSlots, modSched, State.modCar_car]; split <;> simp_all

@[simp] theorem endBatch_car (id : BatchId) (why : EndReason) (s : State) (d : Carrier) :
    ((endBatch id why s).car d).word = (s.car d).word ∧ ((endBatch id why s).car d).key = (s.car d).key ∧ ((endBatch id why s).car d).power = (s.car d).power ∧
    ((endBatch id why s).car d).monitor = (s.car d).monitor ∧ ((endBatch id why s).car d).marker = (s.car d).marker ∧ ((endBatch id why s).car d).load = (s.car d).load ∧
    ((endBatch id why s).car d).modPin = (s.car d).modPin ∧ ((endBatch id why s).car d).guardArmed = (s.car d).guardArmed ∧ ((endBatch id why s).car d).guardMarker = (s.car d).guardMarker ∧
    ((endBatch id why s).car d).sched.openSlots = (s.car d).sched.openSlots ∧ ((endBatch id why s).car d).sched.lastMargin = (s.car d).sched.lastMargin ∧ ((endBatch id why s).car d).sched.goodStarts = (s.car d).sched.goodStarts ∧
    ((endBatch id why s).car d).sched.outcomes = (s.car d).sched.outcomes ∧ ((endBatch id why s).car d).sched.settled = (s.car d).sched.settled ∧ ((endBatch id why s).car d).timer.acc = (s.car d).timer.acc ∧
    ((endBatch id why s).car d).timer.step = (s.car d).timer.step := by
  unfold endBatch
  split
  · simp
  · next b hb =>
    by_cases h : d = b.carrier
    · subst h; unfold countEnd; split <;> simp [dropFromCarrier]
    · simp [h, State.modCar_car_other]

@[simp] theorem handOver_car (c : Carrier) (s : State) (d : Carrier) :
    ((handOver c s).car d).maps = (s.car d).maps ∧ ((handOver c s).car d).timer = (s.car d).timer ∧ ((handOver c s).car d).word = (s.car d).word ∧
    ((handOver c s).car d).key = (s.car d).key ∧ ((handOver c s).car d).power = (s.car d).power ∧ ((handOver c s).car d).monitor = (s.car d).monitor ∧
    ((handOver c s).car d).marker = (s.car d).marker ∧ ((handOver c s).car d).load = (s.car d).load ∧ ((handOver c s).car d).modPin = (s.car d).modPin ∧
    ((handOver c s).car d).guardArmed = (s.car d).guardArmed ∧ ((handOver c s).car d).guardMarker = (s.car d).guardMarker ∧ ((handOver c s).car d).counters = (s.car d).counters ∧
    ((handOver c s).car d).sched.openSlots = (s.car d).sched.openSlots ∧ ((handOver c s).car d).sched.lastMargin = (s.car d).sched.lastMargin ∧ ((handOver c s).car d).sched.goodStarts = (s.car d).sched.goodStarts ∧
    ((handOver c s).car d).sched.outcomes = (s.car d).sched.outcomes ∧ ((handOver c s).car d).sched.settled = (s.car d).sched.settled := by
  unfold handOver modSched
  split
  · simp only [modBatch_keeps, State.modCar_car]; split <;> simp_all
  · simp

@[simp] theorem endStale_car (c : Carrier) (ids : List BatchId) (s : State) (d : Carrier) :
    ((endStale c ids s).car d).word = (s.car d).word ∧ ((endStale c ids s).car d).key = (s.car d).key ∧ ((endStale c ids s).car d).power = (s.car d).power ∧
    ((endStale c ids s).car d).monitor = (s.car d).monitor ∧ ((endStale c ids s).car d).marker = (s.car d).marker ∧ ((endStale c ids s).car d).load = (s.car d).load ∧
    ((endStale c ids s).car d).modPin = (s.car d).modPin ∧ ((endStale c ids s).car d).guardArmed = (s.car d).guardArmed ∧ ((endStale c ids s).car d).guardMarker = (s.car d).guardMarker ∧
    ((endStale c ids s).car d).sched.lastMargin = (s.car d).sched.lastMargin ∧ ((endStale c ids s).car d).sched.goodStarts = (s.car d).sched.goodStarts ∧ ((endStale c ids s).car d).sched.outcomes = (s.car d).sched.outcomes ∧
    ((endStale c ids s).car d).sched.settled = (s.car d).sched.settled ∧ ((endStale c ids s).car d).timer.acc = (s.car d).timer.acc ∧ ((endStale c ids s).car d).timer.step = (s.car d).timer.step := by
  induction ids generalizing s with
  | nil => simp [endStale]
  | cons x xs ih => simp [endStale, ih]

@[simp] theorem setMaps_car (c : Carrier) (m : ClaimMaps) (s : State) (d : Carrier) :
    ((setMaps c m s).car d).sched = (s.car d).sched ∧ ((setMaps c m s).car d).timer = (s.car d).timer ∧ ((setMaps c m s).car d).word = (s.car d).word ∧
    ((setMaps c m s).car d).key = (s.car d).key ∧ ((setMaps c m s).car d).power = (s.car d).power ∧ ((setMaps c m s).car d).monitor = (s.car d).monitor ∧
    ((setMaps c m s).car d).marker = (s.car d).marker ∧ ((setMaps c m s).car d).load = (s.car d).load ∧ ((setMaps c m s).car d).modPin = (s.car d).modPin ∧
    ((setMaps c m s).car d).guardArmed = (s.car d).guardArmed ∧ ((setMaps c m s).car d).guardMarker = (s.car d).guardMarker ∧ ((setMaps c m s).car d).counters = (s.car d).counters := by
  simp only [setMaps, State.modCar_car]; split <;> simp_all

@[simp] theorem bringMaps_car (c : Carrier) (s : State) (d : Carrier) :
    ((bringMaps c s).car d).word = (s.car d).word ∧ ((bringMaps c s).car d).key = (s.car d).key ∧ ((bringMaps c s).car d).power = (s.car d).power ∧
    ((bringMaps c s).car d).monitor = (s.car d).monitor ∧ ((bringMaps c s).car d).marker = (s.car d).marker ∧ ((bringMaps c s).car d).load = (s.car d).load ∧
    ((bringMaps c s).car d).modPin = (s.car d).modPin ∧ ((bringMaps c s).car d).guardArmed = (s.car d).guardArmed ∧ ((bringMaps c s).car d).guardMarker = (s.car d).guardMarker ∧
    ((bringMaps c s).car d).sched.lastMargin = (s.car d).sched.lastMargin ∧ ((bringMaps c s).car d).sched.goodStarts = (s.car d).sched.goodStarts ∧ ((bringMaps c s).car d).sched.outcomes = (s.car d).sched.outcomes ∧
    ((bringMaps c s).car d).sched.settled = (s.car d).sched.settled ∧ ((bringMaps c s).car d).timer.acc = (s.car d).timer.acc ∧ ((bringMaps c s).car d).timer.step = (s.car d).timer.step := by
  unfold bringMaps
  dsimp only
  repeat' split
  all_goals simp

@[simp] theorem emptyMaps_car (s : State) (d : Carrier) :
    ((emptyMaps s).car d).sched = (s.car d).sched ∧ ((emptyMaps s).car d).timer = (s.car d).timer ∧ ((emptyMaps s).car d).word = (s.car d).word ∧
    ((emptyMaps s).car d).key = (s.car d).key ∧ ((emptyMaps s).car d).power = (s.car d).power ∧ ((emptyMaps s).car d).monitor = (s.car d).monitor ∧
    ((emptyMaps s).car d).marker = (s.car d).marker ∧ ((emptyMaps s).car d).load = (s.car d).load ∧ ((emptyMaps s).car d).modPin = (s.car d).modPin ∧
    ((emptyMaps s).car d).guardArmed = (s.car d).guardArmed ∧ ((emptyMaps s).car d).guardMarker = (s.car d).guardMarker ∧ ((emptyMaps s).car d).counters = (s.car d).counters := by simp [emptyMaps]

/-! ### Keys, the release and the flush -/

@[simp] theorem dropKey_car (c : Carrier) (s : State) (d : Carrier) :
    ((dropKey c s).car d).maps = (s.car d).maps ∧ ((dropKey c s).car d).sched = (s.car d).sched ∧ ((dropKey c s).car d).timer = (s.car d).timer ∧
    ((dropKey c s).car d).power = (s.car d).power ∧ ((dropKey c s).car d).marker = (s.car d).marker ∧ ((dropKey c s).car d).load = (s.car d).load ∧
    ((dropKey c s).car d).modPin = (s.car d).modPin ∧ ((dropKey c s).car d).guardArmed = (s.car d).guardArmed ∧ ((dropKey c s).car d).guardMarker = (s.car d).guardMarker ∧
    ((dropKey c s).car d).counters = (s.car d).counters := by
  simp only [dropKey, State.modCar_car]; split <;> simp_all

@[simp] theorem cutRun_car (c : Carrier) (r : Run) (s : State) (d : Carrier) :
    ((cutRun c r s).car d).maps = (s.car d).maps ∧ ((cutRun c r s).car d).timer = (s.car d).timer ∧ ((cutRun c r s).car d).word = (s.car d).word ∧
    ((cutRun c r s).car d).key = (s.car d).key ∧ ((cutRun c r s).car d).power = (s.car d).power ∧ ((cutRun c r s).car d).monitor = (s.car d).monitor ∧
    ((cutRun c r s).car d).marker = (s.car d).marker ∧ ((cutRun c r s).car d).load = (s.car d).load ∧ ((cutRun c r s).car d).modPin = (s.car d).modPin ∧
    ((cutRun c r s).car d).guardArmed = (s.car d).guardArmed ∧ ((cutRun c r s).car d).guardMarker = (s.car d).guardMarker ∧ ((cutRun c r s).car d).counters = (s.car d).counters ∧
    ((cutRun c r s).car d).sched.onAir = (s.car d).sched.onAir ∧ ((cutRun c r s).car d).sched.stop = (s.car d).sched.stop ∧ ((cutRun c r s).car d).sched.incoming = (s.car d).sched.incoming ∧
    ((cutRun c r s).car d).sched.stack = (s.car d).sched.stack ∧ ((cutRun c r s).car d).sched.lastMargin = (s.car d).sched.lastMargin ∧ ((cutRun c r s).car d).sched.goodStarts = (s.car d).sched.goodStarts ∧
    ((cutRun c r s).car d).sched.outcomes = (s.car d).sched.outcomes ∧ ((cutRun c r s).car d).sched.settled = (s.car d).sched.settled := by simp [cutRun]

@[simp] theorem releaseNow_car (c : Carrier) (x : Option SlotRef) (s : State) (d : Carrier) :
    ((releaseNow c x s).car d).maps = (s.car d).maps ∧ ((releaseNow c x s).car d).power = (s.car d).power ∧ ((releaseNow c x s).car d).marker = (s.car d).marker ∧
    ((releaseNow c x s).car d).load = (s.car d).load ∧ ((releaseNow c x s).car d).modPin = (s.car d).modPin ∧ ((releaseNow c x s).car d).guardArmed = (s.car d).guardArmed ∧
    ((releaseNow c x s).car d).guardMarker = (s.car d).guardMarker ∧ ((releaseNow c x s).car d).counters = (s.car d).counters ∧ ((releaseNow c x s).car d).sched.onAir = (s.car d).sched.onAir ∧
    ((releaseNow c x s).car d).sched.incoming = (s.car d).sched.incoming ∧ ((releaseNow c x s).car d).sched.stack = (s.car d).sched.stack ∧
    ((releaseNow c x s).car d).sched.lastMargin = (s.car d).sched.lastMargin ∧ ((releaseNow c x s).car d).sched.goodStarts = (s.car d).sched.goodStarts ∧ ((releaseNow c x s).car d).sched.outcomes = (s.car d).sched.outcomes ∧
    ((releaseNow c x s).car d).sched.settled = (s.car d).sched.settled ∧ ((releaseNow c x s).car d).timer.acc = (s.car d).timer.acc ∧ ((releaseNow c x s).car d).timer.step = (s.car d).timer.step := by
  by_cases hd : d = c
  · subst hd
    by_cases h : (s.car d).key = .probe
    · rw [(releaseNow_same d x s).1 h]; simp
    · obtain ⟨h1, os, h2⟩ := (releaseNow_same d x s).2 h
      rw [h1]; simp [h2]
  · simp [hd]

@[simp] theorem releaseAll_car (s : State) (d : Carrier) :
    ((releaseAll s).car d).maps = (s.car d).maps ∧ ((releaseAll s).car d).power = (s.car d).power ∧ ((releaseAll s).car d).marker = (s.car d).marker ∧
    ((releaseAll s).car d).load = (s.car d).load ∧ ((releaseAll s).car d).modPin = (s.car d).modPin ∧ ((releaseAll s).car d).guardArmed = (s.car d).guardArmed ∧
    ((releaseAll s).car d).guardMarker = (s.car d).guardMarker ∧ ((releaseAll s).car d).counters = (s.car d).counters ∧ ((releaseAll s).car d).sched.onAir = (s.car d).sched.onAir ∧
    ((releaseAll s).car d).sched.incoming = (s.car d).sched.incoming ∧ ((releaseAll s).car d).sched.stack = (s.car d).sched.stack ∧
    ((releaseAll s).car d).sched.lastMargin = (s.car d).sched.lastMargin ∧ ((releaseAll s).car d).sched.goodStarts = (s.car d).sched.goodStarts ∧ ((releaseAll s).car d).sched.outcomes = (s.car d).sched.outcomes ∧
    ((releaseAll s).car d).sched.settled = (s.car d).sched.settled ∧ ((releaseAll s).car d).timer.acc = (s.car d).timer.acc ∧ ((releaseAll s).car d).timer.step = (s.car d).timer.step := by simp [releaseAll]

@[simp] theorem flushBatch_car (why : EndReason) (b : Batch) (s : State) (d : Carrier) :
    ((flushBatch why b s).car d).word = (s.car d).word ∧ ((flushBatch why b s).car d).key = (s.car d).key ∧ ((flushBatch why b s).car d).power = (s.car d).power ∧
    ((flushBatch why b s).car d).monitor = (s.car d).monitor ∧ ((flushBatch why b s).car d).marker = (s.car d).marker ∧ ((flushBatch why b s).car d).load = (s.car d).load ∧
    ((flushBatch why b s).car d).modPin = (s.car d).modPin ∧ ((flushBatch why b s).car d).guardArmed = (s.car d).guardArmed ∧ ((flushBatch why b s).car d).guardMarker = (s.car d).guardMarker ∧
    ((flushBatch why b s).car d).sched.lastMargin = (s.car d).sched.lastMargin ∧ ((flushBatch why b s).car d).sched.goodStarts = (s.car d).sched.goodStarts ∧ ((flushBatch why b s).car d).sched.outcomes = (s.car d).sched.outcomes ∧
    ((flushBatch why b s).car d).sched.settled = (s.car d).sched.settled ∧ ((flushBatch why b s).car d).timer.acc = (s.car d).timer.acc ∧ ((flushBatch why b s).car d).timer.step = (s.car d).timer.step := by
  unfold flushBatch
  repeat' split
  all_goals simp

@[simp] theorem flushAll_car (why : EndReason) (s : State) (d : Carrier) :
    ((flushAll why s).car d).word = (s.car d).word ∧ ((flushAll why s).car d).key = (s.car d).key ∧ ((flushAll why s).car d).power = (s.car d).power ∧
    ((flushAll why s).car d).monitor = (s.car d).monitor ∧ ((flushAll why s).car d).marker = (s.car d).marker ∧ ((flushAll why s).car d).load = (s.car d).load ∧
    ((flushAll why s).car d).modPin = (s.car d).modPin ∧ ((flushAll why s).car d).guardArmed = (s.car d).guardArmed ∧ ((flushAll why s).car d).guardMarker = (s.car d).guardMarker ∧
    ((flushAll why s).car d).sched.lastMargin = (s.car d).sched.lastMargin ∧ ((flushAll why s).car d).sched.goodStarts = (s.car d).sched.goodStarts ∧ ((flushAll why s).car d).sched.outcomes = (s.car d).sched.outcomes ∧
    ((flushAll why s).car d).sched.settled = (s.car d).sched.settled ∧ ((flushAll why s).car d).timer.acc = (s.car d).timer.acc ∧ ((flushAll why s).car d).timer.step = (s.car d).timer.step := by
  have h := foldl_keeps (fun t => let k := t.car d; (k.word, k.key, k.power, k.monitor, k.marker, k.load, k.modPin, k.guardArmed, k.guardMarker, k.sched.lastMargin, k.sched.goodStarts, k.sched.outcomes, k.sched.settled, k.timer.acc, k.timer.step))
    (f := fun s b => flushBatch why b s) (by simp) s.batches s
  simp only [Prod.mk.injEq] at h
  simpa [flushAll] using h

@[simp] theorem wakeTrigger_car (c : Carrier) (s : State) (d : Carrier) :
    ((wakeTrigger c s).car d).maps = (s.car d).maps ∧ ((wakeTrigger c s).car d).sched = (s.car d).sched ∧ ((wakeTrigger c s).car d).timer = (s.car d).timer ∧
    ((wakeTrigger c s).car d).word = (s.car d).word ∧ ((wakeTrigger c s).car d).key = (s.car d).key ∧ ((wakeTrigger c s).car d).monitor = (s.car d).monitor ∧
    ((wakeTrigger c s).car d).marker = (s.car d).marker ∧ ((wakeTrigger c s).car d).load = (s.car d).load ∧ ((wakeTrigger c s).car d).modPin = (s.car d).modPin ∧
    ((wakeTrigger c s).car d).guardArmed = (s.car d).guardArmed ∧ ((wakeTrigger c s).car d).guardMarker = (s.car d).guardMarker ∧ ((wakeTrigger c s).car d).counters = (s.car d).counters := by
  unfold wakeTrigger
  split
  · simp only [State.modCar_car]; split <;> simp_all
  · simp

/-! ### Reports -/

@[simp] theorem relabel_car (c : Carrier) (e : EpochNo) (s : State) (d : Carrier) :
    ((relabel c e s).car d).maps = (s.car d).maps ∧ ((relabel c e s).car d).timer = (s.car d).timer ∧ ((relabel c e s).car d).word = (s.car d).word ∧
    ((relabel c e s).car d).key = (s.car d).key ∧ ((relabel c e s).car d).power = (s.car d).power ∧ ((relabel c e s).car d).monitor = (s.car d).monitor ∧
    ((relabel c e s).car d).marker = (s.car d).marker ∧ ((relabel c e s).car d).load = (s.car d).load ∧ ((relabel c e s).car d).modPin = (s.car d).modPin ∧
    ((relabel c e s).car d).guardArmed = (s.car d).guardArmed ∧ ((relabel c e s).car d).guardMarker = (s.car d).guardMarker ∧ ((relabel c e s).car d).counters = (s.car d).counters ∧
    ((relabel c e s).car d).sched.onAir = (s.car d).sched.onAir ∧ ((relabel c e s).car d).sched.stop = (s.car d).sched.stop ∧ ((relabel c e s).car d).sched.incoming = (s.car d).sched.incoming ∧
    ((relabel c e s).car d).sched.stack = (s.car d).sched.stack ∧ ((relabel c e s).car d).sched.openSlots = (s.car d).sched.openSlots ∧ ((relabel c e s).car d).sched.lastMargin = (s.car d).sched.lastMargin ∧
    ((relabel c e s).car d).sched.goodStarts = (s.car d).sched.goodStarts ∧ ((relabel c e s).car d).sched.settled = (s.car d).sched.settled := by
  simp only [relabel, modSched, State.modCar_car]; split <;> simp_all

@[simp] theorem noteClosed_car (c : Carrier) (p : OpenSlot → Bool) (s : State) (d : Carrier) :
    ((noteClosed c p s).car d).maps = (s.car d).maps ∧ ((noteClosed c p s).car d).timer = (s.car d).timer ∧ ((noteClosed c p s).car d).word = (s.car d).word ∧
    ((noteClosed c p s).car d).key = (s.car d).key ∧ ((noteClosed c p s).car d).power = (s.car d).power ∧ ((noteClosed c p s).car d).monitor = (s.car d).monitor ∧
    ((noteClosed c p s).car d).marker = (s.car d).marker ∧ ((noteClosed c p s).car d).load = (s.car d).load ∧ ((noteClosed c p s).car d).modPin = (s.car d).modPin ∧
    ((noteClosed c p s).car d).guardArmed = (s.car d).guardArmed ∧ ((noteClosed c p s).car d).guardMarker = (s.car d).guardMarker ∧ ((noteClosed c p s).car d).counters = (s.car d).counters ∧
    ((noteClosed c p s).car d).sched.onAir = (s.car d).sched.onAir ∧ ((noteClosed c p s).car d).sched.stop = (s.car d).sched.stop ∧ ((noteClosed c p s).car d).sched.incoming = (s.car d).sched.incoming ∧
    ((noteClosed c p s).car d).sched.stack = (s.car d).sched.stack ∧ ((noteClosed c p s).car d).sched.openSlots = (s.car d).sched.openSlots ∧ ((noteClosed c p s).car d).sched.lastMargin = (s.car d).sched.lastMargin ∧
    ((noteClosed c p s).car d).sched.goodStarts = (s.car d).sched.goodStarts ∧ ((noteClosed c p s).car d).sched.settled = (s.car d).sched.settled ∧ ((noteClosed c p s).car d).sched.outcomes = (s.car d).sched.outcomes := by
  simp only [noteClosed, modSched, State.modCar_car]; split <;> simp_all

@[simp] theorem reportCycle_car (c : Carrier) (e : EpochNo) (r : Bool) (s : State) (d : Carrier) :
    ((reportCycle c e r s).car d).maps = (s.car d).maps ∧ ((reportCycle c e r s).car d).timer = (s.car d).timer ∧ ((reportCycle c e r s).car d).word = (s.car d).word ∧
    ((reportCycle c e r s).car d).key = (s.car d).key ∧ ((reportCycle c e r s).car d).power = (s.car d).power ∧ ((reportCycle c e r s).car d).monitor = (s.car d).monitor ∧
    ((reportCycle c e r s).car d).marker = (s.car d).marker ∧ ((reportCycle c e r s).car d).load = (s.car d).load ∧ ((reportCycle c e r s).car d).modPin = (s.car d).modPin ∧
    ((reportCycle c e r s).car d).guardArmed = (s.car d).guardArmed ∧ ((reportCycle c e r s).car d).guardMarker = (s.car d).guardMarker ∧ ((reportCycle c e r s).car d).counters = (s.car d).counters ∧
    ((reportCycle c e r s).car d).sched.onAir = (s.car d).sched.onAir ∧ ((reportCycle c e r s).car d).sched.stop = (s.car d).sched.stop ∧ ((reportCycle c e r s).car d).sched.incoming = (s.car d).sched.incoming ∧
    ((reportCycle c e r s).car d).sched.stack = (s.car d).sched.stack ∧ ((reportCycle c e r s).car d).sched.lastMargin = (s.car d).sched.lastMargin ∧ ((reportCycle c e r s).car d).sched.goodStarts = (s.car d).sched.goodStarts ∧
    ((reportCycle c e r s).car d).sched.settled = (s.car d).sched.settled := by
  unfold reportCycle
  cases r
  · simp
  · simp only [if_true, relabel_car, sendReport_keeps, modSched, State.modCar_car]; split <;> simp_all

@[simp] theorem reportCycles_car (e : EpochNo) (r : Bool) (s : State) (d : Carrier) :
    ((reportCycles e r s).car d).maps = (s.car d).maps ∧ ((reportCycles e r s).car d).timer = (s.car d).timer ∧ ((reportCycles e r s).car d).word = (s.car d).word ∧
    ((reportCycles e r s).car d).key = (s.car d).key ∧ ((reportCycles e r s).car d).power = (s.car d).power ∧ ((reportCycles e r s).car d).monitor = (s.car d).monitor ∧
    ((reportCycles e r s).car d).marker = (s.car d).marker ∧ ((reportCycles e r s).car d).load = (s.car d).load ∧ ((reportCycles e r s).car d).modPin = (s.car d).modPin ∧
    ((reportCycles e r s).car d).guardArmed = (s.car d).guardArmed ∧ ((reportCycles e r s).car d).guardMarker = (s.car d).guardMarker ∧ ((reportCycles e r s).car d).counters = (s.car d).counters ∧
    ((reportCycles e r s).car d).sched.onAir = (s.car d).sched.onAir ∧ ((reportCycles e r s).car d).sched.stop = (s.car d).sched.stop ∧ ((reportCycles e r s).car d).sched.incoming = (s.car d).sched.incoming ∧
    ((reportCycles e r s).car d).sched.stack = (s.car d).sched.stack ∧ ((reportCycles e r s).car d).sched.lastMargin = (s.car d).sched.lastMargin ∧ ((reportCycles e r s).car d).sched.goodStarts = (s.car d).sched.goodStarts ∧
    ((reportCycles e r s).car d).sched.settled = (s.car d).sched.settled := by simp [reportCycles]

@[simp] theorem startReports_car (r : Bool) (s : State) (d : Carrier) :
    ((startReports r s).car d).maps = (s.car d).maps ∧ ((startReports r s).car d).timer = (s.car d).timer ∧ ((startReports r s).car d).word = (s.car d).word ∧
    ((startReports r s).car d).key = (s.car d).key ∧ ((startReports r s).car d).power = (s.car d).power ∧ ((startReports r s).car d).monitor = (s.car d).monitor ∧
    ((startReports r s).car d).marker = (s.car d).marker ∧ ((startReports r s).car d).load = (s.car d).load ∧ ((startReports r s).car d).modPin = (s.car d).modPin ∧
    ((startReports r s).car d).guardArmed = (s.car d).guardArmed ∧ ((startReports r s).car d).guardMarker = (s.car d).guardMarker ∧ ((startReports r s).car d).counters = (s.car d).counters ∧
    ((startReports r s).car d).sched.onAir = (s.car d).sched.onAir ∧ ((startReports r s).car d).sched.stop = (s.car d).sched.stop ∧ ((startReports r s).car d).sched.incoming = (s.car d).sched.incoming ∧
    ((startReports r s).car d).sched.stack = (s.car d).sched.stack ∧ ((startReports r s).car d).sched.lastMargin = (s.car d).sched.lastMargin ∧ ((startReports r s).car d).sched.goodStarts = (s.car d).sched.goodStarts ∧
    ((startReports r s).car d).sched.settled = (s.car d).sched.settled := by
  unfold startReports
  repeat' split
  all_goals simp

/-! ### The probe and the Tracker -/

@[simp] theorem returnKey_car (s : State) (d : Carrier) :
    ((returnKey s).car d).maps = (s.car d).maps ∧ ((returnKey s).car d).sched = (s.car d).sched ∧ ((returnKey s).car d).timer = (s.car d).timer ∧
    ((returnKey s).car d).power = (s.car d).power ∧ ((returnKey s).car d).marker = (s.car d).marker ∧ ((returnKey s).car d).load = (s.car d).load ∧
    ((returnKey s).car d).modPin = (s.car d).modPin ∧ ((returnKey s).car d).guardArmed = (s.car d).guardArmed ∧ ((returnKey s).car d).guardMarker = (s.car d).guardMarker ∧
    ((returnKey s).car d).counters = (s.car d).counters := by
  unfold returnKey
  repeat' split
  all_goals simp

@[simp] theorem abortProbe_car (s : State) (d : Carrier) :
    ((abortProbe s).car d).maps = (s.car d).maps ∧ ((abortProbe s).car d).sched = (s.car d).sched ∧ ((abortProbe s).car d).timer = (s.car d).timer ∧
    ((abortProbe s).car d).power = (s.car d).power ∧ ((abortProbe s).car d).marker = (s.car d).marker ∧ ((abortProbe s).car d).load = (s.car d).load ∧
    ((abortProbe s).car d).modPin = (s.car d).modPin ∧ ((abortProbe s).car d).guardArmed = (s.car d).guardArmed ∧ ((abortProbe s).car d).guardMarker = (s.car d).guardMarker ∧
    ((abortProbe s).car d).counters = (s.car d).counters := by
  unfold abortProbe
  dsimp only
  repeat' split
  all_goals simp

@[simp] theorem restartProbe_car (s : State) (d : Carrier) :
    ((restartProbe s).car d).maps = (s.car d).maps ∧ ((restartProbe s).car d).sched = (s.car d).sched ∧ ((restartProbe s).car d).timer = (s.car d).timer ∧
    ((restartProbe s).car d).power = (s.car d).power ∧ ((restartProbe s).car d).marker = (s.car d).marker ∧ ((restartProbe s).car d).load = (s.car d).load ∧
    ((restartProbe s).car d).modPin = (s.car d).modPin ∧ ((restartProbe s).car d).guardArmed = (s.car d).guardArmed ∧ ((restartProbe s).car d).guardMarker = (s.car d).guardMarker ∧
    ((restartProbe s).car d).counters = (s.car d).counters := by simp [restartProbe]

@[simp] theorem startProbe_car (c : Carrier) (m : ProbeMode) (a : Bool) (s : State) (d : Carrier) :
    ((startProbe c m a s).car d).maps = (s.car d).maps ∧ ((startProbe c m a s).car d).sched = (s.car d).sched ∧ ((startProbe c m a s).car d).timer = (s.car d).timer ∧
    ((startProbe c m a s).car d).word = (s.car d).word ∧ ((startProbe c m a s).car d).key = (s.car d).key ∧ ((startProbe c m a s).car d).power = (s.car d).power ∧
    ((startProbe c m a s).car d).monitor = (s.car d).monitor ∧ ((startProbe c m a s).car d).marker = (s.car d).marker ∧ ((startProbe c m a s).car d).modPin = (s.car d).modPin ∧
    ((startProbe c m a s).car d).guardArmed = (s.car d).guardArmed ∧ ((startProbe c m a s).car d).guardMarker = (s.car d).guardMarker ∧ ((startProbe c m a s).car d).counters = (s.car d).counters := by
  cases m <;> simp only [startProbe, State.modCar_car, State.setProbe_car]
  · split <;> simp_all
  · simp

@[simp] theorem driveProbe_car (v : Int) (s : State) (d : Carrier) :
    ((driveProbe v s).car d).maps = (s.car d).maps ∧ ((driveProbe v s).car d).sched = (s.car d).sched ∧ ((driveProbe v s).car d).timer = (s.car d).timer ∧
    ((driveProbe v s).car d).key = (s.car d).key ∧ ((driveProbe v s).car d).power = (s.car d).power ∧ ((driveProbe v s).car d).monitor = (s.car d).monitor ∧
    ((driveProbe v s).car d).marker = (s.car d).marker ∧ ((driveProbe v s).car d).load = (s.car d).load ∧ ((driveProbe v s).car d).modPin = (s.car d).modPin ∧
    ((driveProbe v s).car d).guardArmed = (s.car d).guardArmed ∧ ((driveProbe v s).car d).guardMarker = (s.car d).guardMarker := by
  unfold driveProbe
  dsimp only
  split
  all_goals
    simp only [countClampedWord_car, State.modCar_car]; split <;> simp_all

@[simp] theorem beginProbes_car (s : State) (d : Carrier) :
    ((beginProbes s).car d).maps = (s.car d).maps ∧ ((beginProbes s).car d).sched = (s.car d).sched ∧ ((beginProbes s).car d).timer = (s.car d).timer ∧
    ((beginProbes s).car d).key = (s.car d).key ∧ ((beginProbes s).car d).power = (s.car d).power ∧ ((beginProbes s).car d).monitor = (s.car d).monitor ∧
    ((beginProbes s).car d).marker = (s.car d).marker ∧ ((beginProbes s).car d).load = (s.car d).load ∧ ((beginProbes s).car d).modPin = (s.car d).modPin ∧
    ((beginProbes s).car d).guardArmed = (s.car d).guardArmed ∧ ((beginProbes s).car d).guardMarker = (s.car d).guardMarker := by simp [beginProbes]

@[simp] theorem sampleRf_car (s : State) (d : Carrier) :
    ((sampleRf s).car d).maps = (s.car d).maps ∧ ((sampleRf s).car d).sched = (s.car d).sched ∧ ((sampleRf s).car d).timer = (s.car d).timer ∧
    ((sampleRf s).car d).word = (s.car d).word ∧ ((sampleRf s).car d).key = (s.car d).key ∧ ((sampleRf s).car d).power = (s.car d).power ∧
    ((sampleRf s).car d).marker = (s.car d).marker ∧ ((sampleRf s).car d).load = (s.car d).load ∧ ((sampleRf s).car d).modPin = (s.car d).modPin ∧
    ((sampleRf s).car d).guardArmed = (s.car d).guardArmed ∧ ((sampleRf s).car d).guardMarker = (s.car d).guardMarker ∧ ((sampleRf s).car d).counters = (s.car d).counters := by simp [sampleRf]

@[simp] theorem timingLoss_car (s : State) (d : Carrier) :
    ((timingLoss s).car d).power = (s.car d).power ∧ ((timingLoss s).car d).marker = (s.car d).marker ∧ ((timingLoss s).car d).load = (s.car d).load ∧
    ((timingLoss s).car d).modPin = (s.car d).modPin ∧ ((timingLoss s).car d).guardArmed = (s.car d).guardArmed ∧ ((timingLoss s).car d).guardMarker = (s.car d).guardMarker ∧
    ((timingLoss s).car d).sched.lastMargin = (s.car d).sched.lastMargin ∧ ((timingLoss s).car d).sched.goodStarts = (s.car d).sched.goodStarts ∧ ((timingLoss s).car d).sched.outcomes = (s.car d).sched.outcomes ∧
    ((timingLoss s).car d).sched.settled = (s.car d).sched.settled ∧ ((timingLoss s).car d).timer.acc = (s.car d).timer.acc ∧ ((timingLoss s).car d).timer.step = (s.car d).timer.step := by simp [timingLoss]

@[simp] theorem recordAllOpen_car (s : State) (d : Carrier) :
    ((recordAllOpen s).car d).maps = (s.car d).maps ∧ ((recordAllOpen s).car d).timer = (s.car d).timer ∧ ((recordAllOpen s).car d).word = (s.car d).word ∧
    ((recordAllOpen s).car d).key = (s.car d).key ∧ ((recordAllOpen s).car d).power = (s.car d).power ∧ ((recordAllOpen s).car d).monitor = (s.car d).monitor ∧
    ((recordAllOpen s).car d).marker = (s.car d).marker ∧ ((recordAllOpen s).car d).load = (s.car d).load ∧ ((recordAllOpen s).car d).modPin = (s.car d).modPin ∧
    ((recordAllOpen s).car d).guardArmed = (s.car d).guardArmed ∧ ((recordAllOpen s).car d).guardMarker = (s.car d).guardMarker ∧ ((recordAllOpen s).car d).counters = (s.car d).counters ∧
    ((recordAllOpen s).car d).sched.onAir = (s.car d).sched.onAir ∧ ((recordAllOpen s).car d).sched.stop = (s.car d).sched.stop ∧ ((recordAllOpen s).car d).sched.incoming = (s.car d).sched.incoming ∧
    ((recordAllOpen s).car d).sched.stack = (s.car d).sched.stack ∧ ((recordAllOpen s).car d).sched.lastMargin = (s.car d).sched.lastMargin ∧ ((recordAllOpen s).car d).sched.goodStarts = (s.car d).sched.goodStarts ∧
    ((recordAllOpen s).car d).sched.settled = (s.car d).sched.settled := by simp [recordAllOpen]

@[simp] theorem clearMonitors_car (s : State) (d : Carrier) :
    ((clearMonitors s).car d).maps = (s.car d).maps ∧ ((clearMonitors s).car d).sched = (s.car d).sched ∧ ((clearMonitors s).car d).timer = (s.car d).timer ∧
    ((clearMonitors s).car d).word = (s.car d).word ∧ ((clearMonitors s).car d).key = (s.car d).key ∧ ((clearMonitors s).car d).power = (s.car d).power ∧
    ((clearMonitors s).car d).marker = (s.car d).marker ∧ ((clearMonitors s).car d).load = (s.car d).load ∧ ((clearMonitors s).car d).modPin = (s.car d).modPin ∧
    ((clearMonitors s).car d).guardArmed = (s.car d).guardArmed ∧ ((clearMonitors s).car d).guardMarker = (s.car d).guardMarker ∧ ((clearMonitors s).car d).counters = (s.car d).counters := by simp [clearMonitors]

@[simp] theorem renumberingFlush_car (s : State) (d : Carrier) :
    ((renumberingFlush s).car d).power = (s.car d).power ∧ ((renumberingFlush s).car d).marker = (s.car d).marker ∧ ((renumberingFlush s).car d).load = (s.car d).load ∧
    ((renumberingFlush s).car d).modPin = (s.car d).modPin ∧ ((renumberingFlush s).car d).guardArmed = (s.car d).guardArmed ∧ ((renumberingFlush s).car d).guardMarker = (s.car d).guardMarker ∧
    ((renumberingFlush s).car d).sched.lastMargin = (s.car d).sched.lastMargin ∧ ((renumberingFlush s).car d).sched.goodStarts = (s.car d).sched.goodStarts ∧ ((renumberingFlush s).car d).sched.outcomes = (s.car d).sched.outcomes ∧
    ((renumberingFlush s).car d).sched.settled = (s.car d).sched.settled ∧ ((renumberingFlush s).car d).timer.acc = (s.car d).timer.acc ∧ ((renumberingFlush s).car d).timer.step = (s.car d).timer.step := by simp [renumberingFlush]

@[simp] theorem bringAllMaps_car (s : State) (d : Carrier) :
    ((bringAllMaps s).car d).word = (s.car d).word ∧ ((bringAllMaps s).car d).key = (s.car d).key ∧ ((bringAllMaps s).car d).power = (s.car d).power ∧
    ((bringAllMaps s).car d).monitor = (s.car d).monitor ∧ ((bringAllMaps s).car d).marker = (s.car d).marker ∧ ((bringAllMaps s).car d).load = (s.car d).load ∧
    ((bringAllMaps s).car d).modPin = (s.car d).modPin ∧ ((bringAllMaps s).car d).guardArmed = (s.car d).guardArmed ∧ ((bringAllMaps s).car d).guardMarker = (s.car d).guardMarker ∧
    ((bringAllMaps s).car d).sched.lastMargin = (s.car d).sched.lastMargin ∧ ((bringAllMaps s).car d).sched.goodStarts = (s.car d).sched.goodStarts ∧ ((bringAllMaps s).car d).sched.outcomes = (s.car d).sched.outcomes ∧
    ((bringAllMaps s).car d).sched.settled = (s.car d).sched.settled ∧ ((bringAllMaps s).car d).timer.acc = (s.car d).timer.acc ∧ ((bringAllMaps s).car d).timer.step = (s.car d).timer.step := by simp [bringAllMaps]

@[simp] theorem completeStart_car (s : State) (d : Carrier) :
    ((completeStart s).car d).power = (s.car d).power ∧ ((completeStart s).car d).marker = (s.car d).marker ∧ ((completeStart s).car d).load = (s.car d).load ∧
    ((completeStart s).car d).modPin = (s.car d).modPin ∧ ((completeStart s).car d).guardArmed = (s.car d).guardArmed ∧ ((completeStart s).car d).guardMarker = (s.car d).guardMarker ∧
    ((completeStart s).car d).sched.lastMargin = (s.car d).sched.lastMargin ∧ ((completeStart s).car d).sched.goodStarts = (s.car d).sched.goodStarts ∧ ((completeStart s).car d).sched.settled = (s.car d).sched.settled ∧
    ((completeStart s).car d).timer.acc = (s.car d).timer.acc ∧ ((completeStart s).car d).timer.step = (s.car d).timer.step := by
  unfold completeStart
  dsimp only
  split <;> simp

/-! ### Decisions -/

@[simp] theorem displaceOldest_car (c : Carrier) (sl : SlotRef) (s : State) (d : Carrier) :
    ((displaceOldest c sl s).car d).word = (s.car d).word ∧ ((displaceOldest c sl s).car d).key = (s.car d).key ∧ ((displaceOldest c sl s).car d).power = (s.car d).power ∧
    ((displaceOldest c sl s).car d).monitor = (s.car d).monitor ∧ ((displaceOldest c sl s).car d).marker = (s.car d).marker ∧ ((displaceOldest c sl s).car d).load = (s.car d).load ∧
    ((displaceOldest c sl s).car d).modPin = (s.car d).modPin ∧ ((displaceOldest c sl s).car d).guardArmed = (s.car d).guardArmed ∧ ((displaceOldest c sl s).car d).guardMarker = (s.car d).guardMarker ∧
    ((displaceOldest c sl s).car d).sched.lastMargin = (s.car d).sched.lastMargin ∧ ((displaceOldest c sl s).car d).sched.goodStarts = (s.car d).sched.goodStarts ∧ ((displaceOldest c sl s).car d).sched.outcomes = (s.car d).sched.outcomes ∧
    ((displaceOldest c sl s).car d).sched.settled = (s.car d).sched.settled ∧ ((displaceOldest c sl s).car d).timer.acc = (s.car d).timer.acc ∧ ((displaceOldest c sl s).car d).timer.step = (s.car d).timer.step := by
  unfold displaceOldest
  repeat' split
  all_goals simp

@[simp] theorem pushOnAir_car (c : Carrier) (sl : SlotRef) (id : BatchId) (s : State) (d : Carrier) :
    ((pushOnAir c sl id s).car d).word = (s.car d).word ∧ ((pushOnAir c sl id s).car d).key = (s.car d).key ∧ ((pushOnAir c sl id s).car d).power = (s.car d).power ∧
    ((pushOnAir c sl id s).car d).monitor = (s.car d).monitor ∧ ((pushOnAir c sl id s).car d).marker = (s.car d).marker ∧ ((pushOnAir c sl id s).car d).load = (s.car d).load ∧
    ((pushOnAir c sl id s).car d).modPin = (s.car d).modPin ∧ ((pushOnAir c sl id s).car d).guardArmed = (s.car d).guardArmed ∧ ((pushOnAir c sl id s).car d).guardMarker = (s.car d).guardMarker ∧
    ((pushOnAir c sl id s).car d).sched.lastMargin = (s.car d).sched.lastMargin ∧ ((pushOnAir c sl id s).car d).sched.goodStarts = (s.car d).sched.goodStarts ∧ ((pushOnAir c sl id s).car d).sched.outcomes = (s.car d).sched.outcomes ∧
    ((pushOnAir c sl id s).car d).sched.settled = (s.car d).sched.settled ∧ ((pushOnAir c sl id s).car d).timer.acc = (s.car d).timer.acc ∧ ((pushOnAir c sl id s).car d).timer.step = (s.car d).timer.step := by
  simp only [pushOnAir, modSched, State.modCar_car]; split <;> simp_all

@[simp] theorem stopBatch_car (c : Carrier) (sl : SlotRef) (id : BatchId) (w : StopReason) (s : State) (d : Carrier) :
    ((stopBatch c sl id w s).car d).word = (s.car d).word ∧ ((stopBatch c sl id w s).car d).key = (s.car d).key ∧ ((stopBatch c sl id w s).car d).power = (s.car d).power ∧
    ((stopBatch c sl id w s).car d).monitor = (s.car d).monitor ∧ ((stopBatch c sl id w s).car d).marker = (s.car d).marker ∧ ((stopBatch c sl id w s).car d).load = (s.car d).load ∧
    ((stopBatch c sl id w s).car d).modPin = (s.car d).modPin ∧ ((stopBatch c sl id w s).car d).guardArmed = (s.car d).guardArmed ∧ ((stopBatch c sl id w s).car d).guardMarker = (s.car d).guardMarker ∧
    ((stopBatch c sl id w s).car d).sched.lastMargin = (s.car d).sched.lastMargin ∧ ((stopBatch c sl id w s).car d).sched.goodStarts = (s.car d).sched.goodStarts ∧ ((stopBatch c sl id w s).car d).sched.outcomes = (s.car d).sched.outcomes ∧
    ((stopBatch c sl id w s).car d).sched.settled = (s.car d).sched.settled ∧ ((stopBatch c sl id w s).car d).timer.acc = (s.car d).timer.acc ∧ ((stopBatch c sl id w s).car d).timer.step = (s.car d).timer.step := by
  unfold stopBatch modSched
  dsimp only
  split
  · simp only [State.modCar_car]; split <;> simp_all
  · simp

@[simp] theorem dropClaimant_car (c : Carrier) (sl : SlotRef) (b : Batch) (k : OutcomeCode) (w : EndReason) (s : State) (d : Carrier) :
    ((dropClaimant c sl b k w s).car d).word = (s.car d).word ∧ ((dropClaimant c sl b k w s).car d).key = (s.car d).key ∧ ((dropClaimant c sl b k w s).car d).power = (s.car d).power ∧
    ((dropClaimant c sl b k w s).car d).monitor = (s.car d).monitor ∧ ((dropClaimant c sl b k w s).car d).marker = (s.car d).marker ∧ ((dropClaimant c sl b k w s).car d).load = (s.car d).load ∧
    ((dropClaimant c sl b k w s).car d).modPin = (s.car d).modPin ∧ ((dropClaimant c sl b k w s).car d).guardArmed = (s.car d).guardArmed ∧ ((dropClaimant c sl b k w s).car d).guardMarker = (s.car d).guardMarker ∧
    ((dropClaimant c sl b k w s).car d).sched.lastMargin = (s.car d).sched.lastMargin ∧ ((dropClaimant c sl b k w s).car d).sched.goodStarts = (s.car d).sched.goodStarts ∧ ((dropClaimant c sl b k w s).car d).sched.outcomes = (s.car d).sched.outcomes ∧
    ((dropClaimant c sl b k w s).car d).sched.settled = (s.car d).sched.settled ∧ ((dropClaimant c sl b k w s).car d).timer.acc = (s.car d).timer.acc ∧ ((dropClaimant c sl b k w s).car d).timer.step = (s.car d).timer.step := by simp [dropClaimant]

@[simp] theorem gateHolds_car (c : Carrier) (sl : SlotRef) (b : Option Batch) (k : OutcomeCode) (w : EndReason) (s : State) (d : Carrier) :
    ((gateHolds c sl b k w s).car d).word = (s.car d).word ∧ ((gateHolds c sl b k w s).car d).key = (s.car d).key ∧ ((gateHolds c sl b k w s).car d).power = (s.car d).power ∧
    ((gateHolds c sl b k w s).car d).monitor = (s.car d).monitor ∧ ((gateHolds c sl b k w s).car d).marker = (s.car d).marker ∧ ((gateHolds c sl b k w s).car d).load = (s.car d).load ∧
    ((gateHolds c sl b k w s).car d).modPin = (s.car d).modPin ∧ ((gateHolds c sl b k w s).car d).guardArmed = (s.car d).guardArmed ∧ ((gateHolds c sl b k w s).car d).guardMarker = (s.car d).guardMarker ∧
    ((gateHolds c sl b k w s).car d).sched.lastMargin = (s.car d).sched.lastMargin ∧ ((gateHolds c sl b k w s).car d).sched.goodStarts = (s.car d).sched.goodStarts ∧ ((gateHolds c sl b k w s).car d).sched.outcomes = (s.car d).sched.outcomes ∧
    ((gateHolds c sl b k w s).car d).sched.settled = (s.car d).sched.settled ∧ ((gateHolds c sl b k w s).car d).timer.acc = (s.car d).timer.acc ∧ ((gateHolds c sl b k w s).car d).timer.step = (s.car d).timer.step := by cases b <;> simp [gateHolds]

@[simp] theorem marksOnAir_car (c : Carrier) (sl : SlotRef) (s : State) (d : Carrier) :
    ((marksOnAir c sl s).car d).word = (s.car d).word ∧ ((marksOnAir c sl s).car d).key = (s.car d).key ∧ ((marksOnAir c sl s).car d).power = (s.car d).power ∧
    ((marksOnAir c sl s).car d).monitor = (s.car d).monitor ∧ ((marksOnAir c sl s).car d).marker = (s.car d).marker ∧ ((marksOnAir c sl s).car d).load = (s.car d).load ∧
    ((marksOnAir c sl s).car d).modPin = (s.car d).modPin ∧ ((marksOnAir c sl s).car d).guardArmed = (s.car d).guardArmed ∧ ((marksOnAir c sl s).car d).guardMarker = (s.car d).guardMarker ∧
    ((marksOnAir c sl s).car d).sched.lastMargin = (s.car d).sched.lastMargin ∧ ((marksOnAir c sl s).car d).sched.goodStarts = (s.car d).sched.goodStarts ∧ ((marksOnAir c sl s).car d).sched.outcomes = (s.car d).sched.outcomes ∧
    ((marksOnAir c sl s).car d).sched.settled = (s.car d).sched.settled ∧ ((marksOnAir c sl s).car d).timer.acc = (s.car d).timer.acc ∧ ((marksOnAir c sl s).car d).timer.step = (s.car d).timer.step := by
  unfold marksOnAir
  repeat' split
  all_goals simp

@[simp] theorem markerStep_car (c : Carrier) (sl : SlotRef) (s : State) (d : Carrier) :
    ((markerStep c sl s).2.car d).word = (s.car d).word ∧ ((markerStep c sl s).2.car d).key = (s.car d).key ∧ ((markerStep c sl s).2.car d).power = (s.car d).power ∧
    ((markerStep c sl s).2.car d).monitor = (s.car d).monitor ∧ ((markerStep c sl s).2.car d).load = (s.car d).load ∧ ((markerStep c sl s).2.car d).modPin = (s.car d).modPin ∧
    ((markerStep c sl s).2.car d).guardArmed = (s.car d).guardArmed ∧ ((markerStep c sl s).2.car d).guardMarker = (s.car d).guardMarker ∧ ((markerStep c sl s).2.car d).sched.lastMargin = (s.car d).sched.lastMargin ∧
    ((markerStep c sl s).2.car d).sched.goodStarts = (s.car d).sched.goodStarts ∧ ((markerStep c sl s).2.car d).sched.outcomes = (s.car d).sched.outcomes ∧ ((markerStep c sl s).2.car d).sched.settled = (s.car d).sched.settled ∧
    ((markerStep c sl s).2.car d).timer.acc = (s.car d).timer.acc ∧ ((markerStep c sl s).2.car d).timer.step = (s.car d).timer.step := by
  unfold markerStep
  dsimp only
  split
  all_goals
    simp only [assignCode_car, State.modCar_car]; split <;> simp_all

@[simp] theorem claimantStep_car (c : Carrier) (sl : SlotRef) (b : Option Batch) (s : State) (d : Carrier) :
    ((claimantStep c sl b s).2.car d).word = (s.car d).word ∧ ((claimantStep c sl b s).2.car d).key = (s.car d).key ∧ ((claimantStep c sl b s).2.car d).power = (s.car d).power ∧
    ((claimantStep c sl b s).2.car d).monitor = (s.car d).monitor ∧ ((claimantStep c sl b s).2.car d).marker = (s.car d).marker ∧ ((claimantStep c sl b s).2.car d).load = (s.car d).load ∧
    ((claimantStep c sl b s).2.car d).modPin = (s.car d).modPin ∧ ((claimantStep c sl b s).2.car d).guardArmed = (s.car d).guardArmed ∧ ((claimantStep c sl b s).2.car d).guardMarker = (s.car d).guardMarker ∧
    ((claimantStep c sl b s).2.car d).sched.lastMargin = (s.car d).sched.lastMargin ∧ ((claimantStep c sl b s).2.car d).sched.goodStarts = (s.car d).sched.goodStarts ∧ ((claimantStep c sl b s).2.car d).sched.outcomes = (s.car d).sched.outcomes ∧
    ((claimantStep c sl b s).2.car d).sched.settled = (s.car d).sched.settled ∧ ((claimantStep c sl b s).2.car d).timer.acc = (s.car d).timer.acc ∧ ((claimantStep c sl b s).2.car d).timer.step = (s.car d).timer.step := by
  unfold claimantStep
  repeat' split
  all_goals simp

@[simp] theorem continueStep_car (c : Carrier) (sl : SlotRef) (p : Option Program) (s : State) (d : Carrier) :
    ((continueStep c sl p s).2.car d).word = (s.car d).word ∧ ((continueStep c sl p s).2.car d).key = (s.car d).key ∧ ((continueStep c sl p s).2.car d).power = (s.car d).power ∧
    ((continueStep c sl p s).2.car d).monitor = (s.car d).monitor ∧ ((continueStep c sl p s).2.car d).marker = (s.car d).marker ∧ ((continueStep c sl p s).2.car d).load = (s.car d).load ∧
    ((continueStep c sl p s).2.car d).modPin = (s.car d).modPin ∧ ((continueStep c sl p s).2.car d).guardArmed = (s.car d).guardArmed ∧ ((continueStep c sl p s).2.car d).guardMarker = (s.car d).guardMarker ∧
    ((continueStep c sl p s).2.car d).sched.lastMargin = (s.car d).sched.lastMargin ∧ ((continueStep c sl p s).2.car d).sched.goodStarts = (s.car d).sched.goodStarts ∧ ((continueStep c sl p s).2.car d).sched.outcomes = (s.car d).sched.outcomes ∧
    ((continueStep c sl p s).2.car d).sched.settled = (s.car d).sched.settled ∧ ((continueStep c sl p s).2.car d).timer.acc = (s.car d).timer.acc ∧ ((continueStep c sl p s).2.car d).timer.step = (s.car d).timer.step := by
  unfold continueStep
  repeat' split
  all_goals simp

@[simp] theorem resumeStep_car (c : Carrier) (sl : SlotRef) (ids : List BatchId) (s : State) (d : Carrier) :
    ((resumeStep c sl ids s).2.car d).word = (s.car d).word ∧ ((resumeStep c sl ids s).2.car d).key = (s.car d).key ∧ ((resumeStep c sl ids s).2.car d).power = (s.car d).power ∧
    ((resumeStep c sl ids s).2.car d).monitor = (s.car d).monitor ∧ ((resumeStep c sl ids s).2.car d).marker = (s.car d).marker ∧ ((resumeStep c sl ids s).2.car d).load = (s.car d).load ∧
    ((resumeStep c sl ids s).2.car d).modPin = (s.car d).modPin ∧ ((resumeStep c sl ids s).2.car d).guardArmed = (s.car d).guardArmed ∧ ((resumeStep c sl ids s).2.car d).guardMarker = (s.car d).guardMarker ∧
    ((resumeStep c sl ids s).2.car d).sched.lastMargin = (s.car d).sched.lastMargin ∧ ((resumeStep c sl ids s).2.car d).sched.goodStarts = (s.car d).sched.goodStarts ∧ ((resumeStep c sl ids s).2.car d).sched.outcomes = (s.car d).sched.outcomes ∧
    ((resumeStep c sl ids s).2.car d).sched.settled = (s.car d).sched.settled ∧ ((resumeStep c sl ids s).2.car d).timer.acc = (s.car d).timer.acc ∧ ((resumeStep c sl ids s).2.car d).timer.step = (s.car d).timer.step := by
  induction ids generalizing s with
  | nil => simp [resumeStep]
  | cons id rest ih =>
    unfold resumeStep
    repeat' split
    all_goals simp [ih]

@[simp] theorem trafficSteps_car (c : Carrier) (sl : SlotRef) (b : Option Batch) (s : State) (d : Carrier) :
    ((trafficSteps c sl b s).2.car d).word = (s.car d).word ∧ ((trafficSteps c sl b s).2.car d).key = (s.car d).key ∧ ((trafficSteps c sl b s).2.car d).power = (s.car d).power ∧
    ((trafficSteps c sl b s).2.car d).monitor = (s.car d).monitor ∧ ((trafficSteps c sl b s).2.car d).marker = (s.car d).marker ∧ ((trafficSteps c sl b s).2.car d).load = (s.car d).load ∧
    ((trafficSteps c sl b s).2.car d).modPin = (s.car d).modPin ∧ ((trafficSteps c sl b s).2.car d).guardArmed = (s.car d).guardArmed ∧ ((trafficSteps c sl b s).2.car d).guardMarker = (s.car d).guardMarker ∧
    ((trafficSteps c sl b s).2.car d).sched.lastMargin = (s.car d).sched.lastMargin ∧ ((trafficSteps c sl b s).2.car d).sched.goodStarts = (s.car d).sched.goodStarts ∧ ((trafficSteps c sl b s).2.car d).sched.outcomes = (s.car d).sched.outcomes ∧
    ((trafficSteps c sl b s).2.car d).sched.settled = (s.car d).sched.settled ∧ ((trafficSteps c sl b s).2.car d).timer.acc = (s.car d).timer.acc ∧ ((trafficSteps c sl b s).2.car d).timer.step = (s.car d).timer.step := by
  unfold trafficSteps
  dsimp only
  repeat' split
  all_goals simp

@[simp] theorem decisionSteps_car (c : Carrier) (sl : SlotRef) (b : Option Batch) (s : State) (d : Carrier) :
    ((decisionSteps c sl b s).2.car d).word = (s.car d).word ∧ ((decisionSteps c sl b s).2.car d).key = (s.car d).key ∧ ((decisionSteps c sl b s).2.car d).power = (s.car d).power ∧
    ((decisionSteps c sl b s).2.car d).monitor = (s.car d).monitor ∧ ((decisionSteps c sl b s).2.car d).load = (s.car d).load ∧ ((decisionSteps c sl b s).2.car d).modPin = (s.car d).modPin ∧
    ((decisionSteps c sl b s).2.car d).guardArmed = (s.car d).guardArmed ∧ ((decisionSteps c sl b s).2.car d).guardMarker = (s.car d).guardMarker ∧ ((decisionSteps c sl b s).2.car d).sched.lastMargin = (s.car d).sched.lastMargin ∧
    ((decisionSteps c sl b s).2.car d).sched.goodStarts = (s.car d).sched.goodStarts ∧ ((decisionSteps c sl b s).2.car d).sched.outcomes = (s.car d).sched.outcomes ∧ ((decisionSteps c sl b s).2.car d).sched.settled = (s.car d).sched.settled ∧
    ((decisionSteps c sl b s).2.car d).timer.acc = (s.car d).timer.acc ∧ ((decisionSteps c sl b s).2.car d).timer.step = (s.car d).timer.step := by
  unfold decisionSteps
  repeat' split
  all_goals simp

@[simp] theorem launchRun_car (c : Carrier) (sl : SlotRef) (g : Fin 16) (x : RateClass) (k : RunContent) (s : State) (d : Carrier) :
    ((launchRun c sl g x k s).car d).maps = (s.car d).maps ∧ ((launchRun c sl g x k s).car d).sched = (s.car d).sched ∧ ((launchRun c sl g x k s).car d).power = (s.car d).power ∧
    ((launchRun c sl g x k s).car d).marker = (s.car d).marker ∧ ((launchRun c sl g x k s).car d).load = (s.car d).load ∧ ((launchRun c sl g x k s).car d).modPin = (s.car d).modPin ∧
    ((launchRun c sl g x k s).car d).guardArmed = (s.car d).guardArmed ∧ ((launchRun c sl g x k s).car d).guardMarker = (s.car d).guardMarker ∧ ((launchRun c sl g x k s).car d).counters = (s.car d).counters ∧
    ((launchRun c sl g x k s).car d).timer.finishing = (s.car d).timer.finishing := by
  unfold launchRun placeRun LaunchTimer.activate keyProgram openPeriod
  dsimp only
  rw [State.modCar_car]
  split
  · next h =>
    subst h
    repeat' split
    all_goals simp
  · simp

@[simp] theorem measureMargin_car (c : Carrier) (b : Batch) (s : State) (d : Carrier) :
    ((measureMargin c b s).car d).maps = (s.car d).maps ∧ ((measureMargin c b s).car d).timer = (s.car d).timer ∧ ((measureMargin c b s).car d).word = (s.car d).word ∧
    ((measureMargin c b s).car d).key = (s.car d).key ∧ ((measureMargin c b s).car d).power = (s.car d).power ∧ ((measureMargin c b s).car d).monitor = (s.car d).monitor ∧
    ((measureMargin c b s).car d).marker = (s.car d).marker ∧ ((measureMargin c b s).car d).load = (s.car d).load ∧ ((measureMargin c b s).car d).modPin = (s.car d).modPin ∧
    ((measureMargin c b s).car d).guardArmed = (s.car d).guardArmed ∧ ((measureMargin c b s).car d).guardMarker = (s.car d).guardMarker ∧ ((measureMargin c b s).car d).sched.onAir = (s.car d).sched.onAir ∧
    ((measureMargin c b s).car d).sched.stop = (s.car d).sched.stop ∧ ((measureMargin c b s).car d).sched.incoming = (s.car d).sched.incoming ∧ ((measureMargin c b s).car d).sched.stack = (s.car d).sched.stack ∧
    ((measureMargin c b s).car d).sched.openSlots = (s.car d).sched.openSlots ∧ ((measureMargin c b s).car d).sched.outcomes = (s.car d).sched.outcomes ∧ ((measureMargin c b s).car d).sched.settled = (s.car d).sched.settled := by
  by_cases h : d = c
  · subst h
    unfold measureMargin modSched
    dsimp only
    repeat' split
    all_goals simp
  · simp [h]

@[simp] theorem programBatch_car (c : Carrier) (sl : SlotRef) (b : Batch) (s : State) (d : Carrier) :
    ((programBatch c sl b s).car d).maps = (s.car d).maps ∧ ((programBatch c sl b s).car d).sched = (s.car d).sched ∧ ((programBatch c sl b s).car d).power = (s.car d).power ∧
    ((programBatch c sl b s).car d).marker = (s.car d).marker ∧ ((programBatch c sl b s).car d).load = (s.car d).load ∧ ((programBatch c sl b s).car d).modPin = (s.car d).modPin ∧
    ((programBatch c sl b s).car d).guardArmed = (s.car d).guardArmed ∧ ((programBatch c sl b s).car d).guardMarker = (s.car d).guardMarker ∧ ((programBatch c sl b s).car d).counters = (s.car d).counters ∧
    ((programBatch c sl b s).car d).timer.finishing = (s.car d).timer.finishing := by simp [programBatch]

@[simp] theorem bringOnAir_car (c : Carrier) (id : BatchId) (s : State) (d : Carrier) :
    ((bringOnAir c id s).car d).maps = (s.car d).maps ∧ ((bringOnAir c id s).car d).timer = (s.car d).timer ∧ ((bringOnAir c id s).car d).word = (s.car d).word ∧
    ((bringOnAir c id s).car d).key = (s.car d).key ∧ ((bringOnAir c id s).car d).power = (s.car d).power ∧ ((bringOnAir c id s).car d).monitor = (s.car d).monitor ∧
    ((bringOnAir c id s).car d).marker = (s.car d).marker ∧ ((bringOnAir c id s).car d).load = (s.car d).load ∧ ((bringOnAir c id s).car d).modPin = (s.car d).modPin ∧
    ((bringOnAir c id s).car d).guardArmed = (s.car d).guardArmed ∧ ((bringOnAir c id s).car d).guardMarker = (s.car d).guardMarker ∧ ((bringOnAir c id s).car d).counters = (s.car d).counters ∧
    ((bringOnAir c id s).car d).sched.openSlots = (s.car d).sched.openSlots ∧ ((bringOnAir c id s).car d).sched.lastMargin = (s.car d).sched.lastMargin ∧ ((bringOnAir c id s).car d).sched.goodStarts = (s.car d).sched.goodStarts ∧
    ((bringOnAir c id s).car d).sched.outcomes = (s.car d).sched.outcomes ∧ ((bringOnAir c id s).car d).sched.settled = (s.car d).sched.settled := by
  simp only [bringOnAir, handOver_car, modSched, State.modCar_car]; split <;> simp_all

@[simp] theorem takeProgram_car (c : Carrier) (sl : SlotRef) (p : Program) (s : State) (d : Carrier) :
    ((takeProgram c sl p s).car d).maps = (s.car d).maps ∧ ((takeProgram c sl p s).car d).power = (s.car d).power ∧ ((takeProgram c sl p s).car d).marker = (s.car d).marker ∧
    ((takeProgram c sl p s).car d).load = (s.car d).load ∧ ((takeProgram c sl p s).car d).modPin = (s.car d).modPin ∧ ((takeProgram c sl p s).car d).guardArmed = (s.car d).guardArmed ∧
    ((takeProgram c sl p s).car d).guardMarker = (s.car d).guardMarker ∧ ((takeProgram c sl p s).car d).sched.openSlots = (s.car d).sched.openSlots ∧ ((takeProgram c sl p s).car d).sched.outcomes = (s.car d).sched.outcomes ∧
    ((takeProgram c sl p s).car d).sched.settled = (s.car d).sched.settled ∧ ((takeProgram c sl p s).car d).timer.finishing = (s.car d).timer.finishing := by
  cases p
  all_goals
    simp only [takeProgram]
    repeat' split
  all_goals simp

@[simp] theorem consumeClaim_car (c : Carrier) (sl : SlotRef) (s : State) (d : Carrier) :
    ((consumeClaim c sl s).car d).sched = (s.car d).sched ∧ ((consumeClaim c sl s).car d).timer = (s.car d).timer ∧ ((consumeClaim c sl s).car d).word = (s.car d).word ∧
    ((consumeClaim c sl s).car d).key = (s.car d).key ∧ ((consumeClaim c sl s).car d).power = (s.car d).power ∧ ((consumeClaim c sl s).car d).monitor = (s.car d).monitor ∧
    ((consumeClaim c sl s).car d).marker = (s.car d).marker ∧ ((consumeClaim c sl s).car d).load = (s.car d).load ∧ ((consumeClaim c sl s).car d).modPin = (s.car d).modPin ∧
    ((consumeClaim c sl s).car d).guardArmed = (s.car d).guardArmed ∧ ((consumeClaim c sl s).car d).guardMarker = (s.car d).guardMarker ∧ ((consumeClaim c sl s).car d).counters = (s.car d).counters := by
  unfold consumeClaim
  dsimp only
  repeat' split
  all_goals simp

@[simp] theorem openSlot_car (c : Carrier) (sl : SlotRef) (s : State) (d : Carrier) :
    ((openSlot c sl s).car d).maps = (s.car d).maps ∧ ((openSlot c sl s).car d).timer = (s.car d).timer ∧ ((openSlot c sl s).car d).word = (s.car d).word ∧
    ((openSlot c sl s).car d).key = (s.car d).key ∧ ((openSlot c sl s).car d).power = (s.car d).power ∧ ((openSlot c sl s).car d).monitor = (s.car d).monitor ∧
    ((openSlot c sl s).car d).marker = (s.car d).marker ∧ ((openSlot c sl s).car d).load = (s.car d).load ∧ ((openSlot c sl s).car d).modPin = (s.car d).modPin ∧
    ((openSlot c sl s).car d).guardArmed = (s.car d).guardArmed ∧ ((openSlot c sl s).car d).guardMarker = (s.car d).guardMarker ∧ ((openSlot c sl s).car d).counters = (s.car d).counters ∧
    ((openSlot c sl s).car d).sched.onAir = (s.car d).sched.onAir ∧ ((openSlot c sl s).car d).sched.stop = (s.car d).sched.stop ∧ ((openSlot c sl s).car d).sched.incoming = (s.car d).sched.incoming ∧
    ((openSlot c sl s).car d).sched.stack = (s.car d).sched.stack ∧ ((openSlot c sl s).car d).sched.lastMargin = (s.car d).sched.lastMargin ∧ ((openSlot c sl s).car d).sched.goodStarts = (s.car d).sched.goodStarts ∧
    ((openSlot c sl s).car d).sched.outcomes = (s.car d).sched.outcomes := by
  simp only [openSlot, modSched, State.modCar_car]; split <;> simp_all

@[simp] theorem setProgram_car (c : Carrier) (sl : SlotRef) (p : Program) (s : State) (d : Carrier) :
    ((setProgram c sl p s).car d).maps = (s.car d).maps ∧ ((setProgram c sl p s).car d).timer = (s.car d).timer ∧ ((setProgram c sl p s).car d).word = (s.car d).word ∧
    ((setProgram c sl p s).car d).key = (s.car d).key ∧ ((setProgram c sl p s).car d).power = (s.car d).power ∧ ((setProgram c sl p s).car d).monitor = (s.car d).monitor ∧
    ((setProgram c sl p s).car d).marker = (s.car d).marker ∧ ((setProgram c sl p s).car d).load = (s.car d).load ∧ ((setProgram c sl p s).car d).modPin = (s.car d).modPin ∧
    ((setProgram c sl p s).car d).guardArmed = (s.car d).guardArmed ∧ ((setProgram c sl p s).car d).guardMarker = (s.car d).guardMarker ∧ ((setProgram c sl p s).car d).counters = (s.car d).counters ∧
    ((setProgram c sl p s).car d).sched.onAir = (s.car d).sched.onAir ∧ ((setProgram c sl p s).car d).sched.stop = (s.car d).sched.stop ∧ ((setProgram c sl p s).car d).sched.incoming = (s.car d).sched.incoming ∧
    ((setProgram c sl p s).car d).sched.stack = (s.car d).sched.stack ∧ ((setProgram c sl p s).car d).sched.lastMargin = (s.car d).sched.lastMargin ∧ ((setProgram c sl p s).car d).sched.goodStarts = (s.car d).sched.goodStarts ∧
    ((setProgram c sl p s).car d).sched.outcomes = (s.car d).sched.outcomes ∧ ((setProgram c sl p s).car d).sched.settled = (s.car d).sched.settled := by
  simp only [setProgram, modSched, State.modCar_car]; split <;> simp_all

@[simp] theorem decideSlot_car (c : Carrier) (sl : SlotRef) (s : State) (d : Carrier) :
    ((decideSlot c sl s).car d).power = (s.car d).power ∧ ((decideSlot c sl s).car d).load = (s.car d).load ∧ ((decideSlot c sl s).car d).modPin = (s.car d).modPin ∧
    ((decideSlot c sl s).car d).guardArmed = (s.car d).guardArmed ∧ ((decideSlot c sl s).car d).guardMarker = (s.car d).guardMarker := by simp [decideSlot]

/-! ### Symbols, payload ends and keys -/

@[simp] theorem driveSymbol_car (c : Carrier) (w : WordSet) (v : Int) (s : State) (d : Carrier) :
    ((driveSymbol c w v s).car d).maps = (s.car d).maps ∧ ((driveSymbol c w v s).car d).sched = (s.car d).sched ∧ ((driveSymbol c w v s).car d).timer = (s.car d).timer ∧
    ((driveSymbol c w v s).car d).key = (s.car d).key ∧ ((driveSymbol c w v s).car d).power = (s.car d).power ∧ ((driveSymbol c w v s).car d).monitor = (s.car d).monitor ∧
    ((driveSymbol c w v s).car d).marker = (s.car d).marker ∧ ((driveSymbol c w v s).car d).load = (s.car d).load ∧ ((driveSymbol c w v s).car d).modPin = (s.car d).modPin ∧
    ((driveSymbol c w v s).car d).guardArmed = (s.car d).guardArmed ∧ ((driveSymbol c w v s).car d).guardMarker = (s.car d).guardMarker := by
  unfold driveSymbol
  dsimp only
  split
  all_goals
    simp only [countClampedWord_car, State.modCar_car]; split <;> simp_all

@[simp] theorem keyUp_car (c : Carrier) (s : State) (d : Carrier) :
    ((keyUp c s).car d).maps = (s.car d).maps ∧ ((keyUp c s).car d).sched = (s.car d).sched ∧ ((keyUp c s).car d).timer = (s.car d).timer ∧
    ((keyUp c s).car d).power = (s.car d).power ∧ ((keyUp c s).car d).marker = (s.car d).marker ∧ ((keyUp c s).car d).load = (s.car d).load ∧
    ((keyUp c s).car d).modPin = (s.car d).modPin ∧ ((keyUp c s).car d).guardArmed = (s.car d).guardArmed ∧ ((keyUp c s).car d).guardMarker = (s.car d).guardMarker ∧
    ((keyUp c s).car d).counters = (s.car d).counters := by
  unfold keyUp openPeriod
  split
  · simp only [State.modCar_car]; split
    · split <;> simp_all
    · simp
  · simp

@[simp] theorem keyFirst_car (c : Carrier) (r : Run) (s : State) (d : Carrier) :
    ((keyFirst c r s).car d).maps = (s.car d).maps ∧ ((keyFirst c r s).car d).sched = (s.car d).sched ∧ ((keyFirst c r s).car d).timer = (s.car d).timer ∧
    ((keyFirst c r s).car d).power = (s.car d).power ∧ ((keyFirst c r s).car d).marker = (s.car d).marker ∧ ((keyFirst c r s).car d).load = (s.car d).load ∧
    ((keyFirst c r s).car d).modPin = (s.car d).modPin ∧ ((keyFirst c r s).car d).guardArmed = (s.car d).guardArmed ∧ ((keyFirst c r s).car d).guardMarker = (s.car d).guardMarker ∧
    ((keyFirst c r s).car d).counters = (s.car d).counters := by
  unfold keyFirst
  split <;> simp

@[simp] theorem checkCarrier_car (c : Carrier) (r : Run) (s : State) (d : Carrier) :
    ((checkCarrier c r s).car d).maps = (s.car d).maps ∧ ((checkCarrier c r s).car d).sched = (s.car d).sched ∧ ((checkCarrier c r s).car d).timer = (s.car d).timer ∧
    ((checkCarrier c r s).car d).word = (s.car d).word ∧ ((checkCarrier c r s).car d).key = (s.car d).key ∧ ((checkCarrier c r s).car d).power = (s.car d).power ∧
    ((checkCarrier c r s).car d).marker = (s.car d).marker ∧ ((checkCarrier c r s).car d).load = (s.car d).load ∧ ((checkCarrier c r s).car d).modPin = (s.car d).modPin ∧
    ((checkCarrier c r s).car d).guardArmed = (s.car d).guardArmed ∧ ((checkCarrier c r s).car d).guardMarker = (s.car d).guardMarker ∧ ((checkCarrier c r s).car d).counters = (s.car d).counters := by
  unfold checkCarrier
  split
  · simp only [latchIf_keeps, State.modCar_car]; split <;> simp_all
  · simp

@[simp] theorem emitWord_car (c : Carrier) (r : Run) (s : State) (d : Carrier) :
    ((emitWord c r s).car d).maps = (s.car d).maps ∧ ((emitWord c r s).car d).sched = (s.car d).sched ∧ ((emitWord c r s).car d).timer = (s.car d).timer ∧
    ((emitWord c r s).car d).key = (s.car d).key ∧ ((emitWord c r s).car d).power = (s.car d).power ∧ ((emitWord c r s).car d).marker = (s.car d).marker ∧
    ((emitWord c r s).car d).load = (s.car d).load ∧ ((emitWord c r s).car d).modPin = (s.car d).modPin ∧ ((emitWord c r s).car d).guardArmed = (s.car d).guardArmed ∧
    ((emitWord c r s).car d).guardMarker = (s.car d).guardMarker := by simp [emitWord]

@[simp] theorem advanceRun_car (c : Carrier) (r : Run) (s : State) (d : Carrier) :
    ((advanceRun c r s).car d).maps = (s.car d).maps ∧ ((advanceRun c r s).car d).sched = (s.car d).sched ∧ ((advanceRun c r s).car d).word = (s.car d).word ∧
    ((advanceRun c r s).car d).key = (s.car d).key ∧ ((advanceRun c r s).car d).power = (s.car d).power ∧ ((advanceRun c r s).car d).monitor = (s.car d).monitor ∧
    ((advanceRun c r s).car d).marker = (s.car d).marker ∧ ((advanceRun c r s).car d).load = (s.car d).load ∧ ((advanceRun c r s).car d).modPin = (s.car d).modPin ∧
    ((advanceRun c r s).car d).guardArmed = (s.car d).guardArmed ∧ ((advanceRun c r s).car d).guardMarker = (s.car d).guardMarker ∧ ((advanceRun c r s).car d).counters = (s.car d).counters := by simp [advanceRun]

@[simp] theorem testFault_car (c : Carrier) (s : State) (d : Carrier) :
    ((testFault c s).car d).maps = (s.car d).maps ∧ ((testFault c s).car d).sched = (s.car d).sched ∧ ((testFault c s).car d).timer = (s.car d).timer ∧
    ((testFault c s).car d).word = (s.car d).word ∧ ((testFault c s).car d).key = (s.car d).key ∧ ((testFault c s).car d).power = (s.car d).power ∧
    ((testFault c s).car d).monitor = (s.car d).monitor ∧ ((testFault c s).car d).marker = (s.car d).marker ∧ ((testFault c s).car d).load = (s.car d).load ∧
    ((testFault c s).car d).modPin = (s.car d).modPin ∧ ((testFault c s).car d).counters = (s.car d).counters := by
  simp only [testFault, latchGuardTest_car, State.modCar_car]; split <;> simp_all

@[simp] theorem guardFault_car (c : Carrier) (r : Run) (id : BatchId) (s : State) (d : Carrier) :
    ((guardFault c r id s).car d).power = (s.car d).power ∧ ((guardFault c r id s).car d).marker = (s.car d).marker ∧ ((guardFault c r id s).car d).load = (s.car d).load ∧
    ((guardFault c r id s).car d).modPin = (s.car d).modPin ∧ ((guardFault c r id s).car d).guardArmed = (s.car d).guardArmed ∧ ((guardFault c r id s).car d).sched.lastMargin = (s.car d).sched.lastMargin ∧
    ((guardFault c r id s).car d).sched.goodStarts = (s.car d).sched.goodStarts ∧ ((guardFault c r id s).car d).sched.outcomes = (s.car d).sched.outcomes ∧ ((guardFault c r id s).car d).sched.settled = (s.car d).sched.settled ∧
    ((guardFault c r id s).car d).timer.acc = (s.car d).timer.acc ∧ ((guardFault c r id s).car d).timer.step = (s.car d).timer.step := by simp [guardFault]

@[simp] theorem closeBlock_car (c : Carrier) (r : Run) (id : BatchId) (i : Nat) (s : State) (d : Carrier) :
    ((closeBlock c r id i s).car d).power = (s.car d).power ∧ ((closeBlock c r id i s).car d).marker = (s.car d).marker ∧ ((closeBlock c r id i s).car d).load = (s.car d).load ∧
    ((closeBlock c r id i s).car d).modPin = (s.car d).modPin ∧ ((closeBlock c r id i s).car d).sched.lastMargin = (s.car d).sched.lastMargin ∧ ((closeBlock c r id i s).car d).sched.goodStarts = (s.car d).sched.goodStarts ∧
    ((closeBlock c r id i s).car d).sched.outcomes = (s.car d).sched.outcomes ∧ ((closeBlock c r id i s).car d).sched.settled = (s.car d).sched.settled := by
  unfold closeBlock
  repeat' split
  all_goals simp

@[simp] theorem emitSymbol_car (c : Carrier) (r : Run) (s : State) (d : Carrier) :
    ((emitSymbol c r s).car d).power = (s.car d).power ∧ ((emitSymbol c r s).car d).marker = (s.car d).marker ∧ ((emitSymbol c r s).car d).load = (s.car d).load ∧
    ((emitSymbol c r s).car d).modPin = (s.car d).modPin ∧ ((emitSymbol c r s).car d).sched.lastMargin = (s.car d).sched.lastMargin ∧ ((emitSymbol c r s).car d).sched.goodStarts = (s.car d).sched.goodStarts ∧
    ((emitSymbol c r s).car d).sched.outcomes = (s.car d).sched.outcomes ∧ ((emitSymbol c r s).car d).sched.settled = (s.car d).sched.settled := by
  unfold emitSymbol
  repeat' split
  all_goals simp

@[simp] theorem settleRun_car (c : Carrier) (r : Run) (s : State) (d : Carrier) :
    ((settleRun c r s).car d).word = (s.car d).word ∧ ((settleRun c r s).car d).key = (s.car d).key ∧ ((settleRun c r s).car d).power = (s.car d).power ∧
    ((settleRun c r s).car d).monitor = (s.car d).monitor ∧ ((settleRun c r s).car d).marker = (s.car d).marker ∧ ((settleRun c r s).car d).load = (s.car d).load ∧
    ((settleRun c r s).car d).modPin = (s.car d).modPin ∧ ((settleRun c r s).car d).guardArmed = (s.car d).guardArmed ∧ ((settleRun c r s).car d).guardMarker = (s.car d).guardMarker ∧
    ((settleRun c r s).car d).sched.lastMargin = (s.car d).sched.lastMargin ∧ ((settleRun c r s).car d).sched.goodStarts = (s.car d).sched.goodStarts ∧ ((settleRun c r s).car d).sched.outcomes = (s.car d).sched.outcomes ∧
    ((settleRun c r s).car d).sched.settled = (s.car d).sched.settled ∧ ((settleRun c r s).car d).timer.acc = (s.car d).timer.acc ∧ ((settleRun c r s).car d).timer.step = (s.car d).timer.step := by
  unfold settleRun
  dsimp only
  repeat' split
  all_goals simp

@[simp] theorem startTail_car (c : Carrier) (s : State) (d : Carrier) :
    ((startTail c s).car d).maps = (s.car d).maps ∧ ((startTail c s).car d).sched = (s.car d).sched ∧ ((startTail c s).car d).timer = (s.car d).timer ∧
    ((startTail c s).car d).power = (s.car d).power ∧ ((startTail c s).car d).marker = (s.car d).marker ∧ ((startTail c s).car d).load = (s.car d).load ∧
    ((startTail c s).car d).modPin = (s.car d).modPin ∧ ((startTail c s).car d).guardArmed = (s.car d).guardArmed ∧ ((startTail c s).car d).guardMarker = (s.car d).guardMarker ∧
    ((startTail c s).car d).counters = (s.car d).counters := by
  unfold startTail
  repeat' split
  · simp
  · simp only [State.modCar_car]; split <;> simp_all
  · simp

/-! ### The Management Unit and the table roll -/

@[simp] theorem refreshWords_car (s : State) (d : Carrier) :
    ((refreshWords s).car d).maps = (s.car d).maps ∧ ((refreshWords s).car d).sched = (s.car d).sched ∧ ((refreshWords s).car d).timer = (s.car d).timer ∧
    ((refreshWords s).car d).key = (s.car d).key ∧ ((refreshWords s).car d).power = (s.car d).power ∧ ((refreshWords s).car d).monitor = (s.car d).monitor ∧
    ((refreshWords s).car d).marker = (s.car d).marker ∧ ((refreshWords s).car d).load = (s.car d).load ∧ ((refreshWords s).car d).modPin = (s.car d).modPin ∧
    ((refreshWords s).car d).guardArmed = (s.car d).guardArmed ∧ ((refreshWords s).car d).guardMarker = (s.car d).guardMarker ∧ ((refreshWords s).car d).counters = (s.car d).counters := by by_cases h : keyLine (s.car d).key = true <;> simp [refreshWords, h]

@[simp] theorem passOver_car (l : Nat) (c : Carrier) (s : State) (d : Carrier) :
    ((passOver l c s).car d).maps = (s.car d).maps ∧ ((passOver l c s).car d).timer = (s.car d).timer ∧ ((passOver l c s).car d).word = (s.car d).word ∧
    ((passOver l c s).car d).key = (s.car d).key ∧ ((passOver l c s).car d).power = (s.car d).power ∧ ((passOver l c s).car d).monitor = (s.car d).monitor ∧
    ((passOver l c s).car d).marker = (s.car d).marker ∧ ((passOver l c s).car d).load = (s.car d).load ∧ ((passOver l c s).car d).modPin = (s.car d).modPin ∧
    ((passOver l c s).car d).guardArmed = (s.car d).guardArmed ∧ ((passOver l c s).car d).guardMarker = (s.car d).guardMarker ∧ ((passOver l c s).car d).counters = (s.car d).counters ∧
    ((passOver l c s).car d).sched.onAir = (s.car d).sched.onAir ∧ ((passOver l c s).car d).sched.stop = (s.car d).sched.stop ∧ ((passOver l c s).car d).sched.incoming = (s.car d).sched.incoming ∧
    ((passOver l c s).car d).sched.stack = (s.car d).sched.stack ∧ ((passOver l c s).car d).sched.openSlots = (s.car d).sched.openSlots ∧ ((passOver l c s).car d).sched.lastMargin = (s.car d).sched.lastMargin ∧
    ((passOver l c s).car d).sched.goodStarts = (s.car d).sched.goodStarts ∧ ((passOver l c s).car d).sched.outcomes = (s.car d).sched.outcomes := by
  unfold passOver modSched
  dsimp only
  split
  · simp only [State.modCar_car]; split <;> simp_all
  · simp

end Sys2Proof.Machine
end

