-- ==== Sys2Proof/Laws/Schedule.lean ====
section
/-! SUPPORT. The shared operations keep claims, on-air batches, incoming batches and stacks in agreement with the Batch Table
(R58, R61, R94, R96). -/

namespace Sys2Proof.Machine

open Sys2Proof.Safety

/-- The agreement rests on the table, the claim maps, and the batches on air, incoming and on the stacks. -/
theorem scheduled_congr {s t : State} (hb : t.batches = s.batches) (hm : ∀ c, (t.car c).maps = (s.car c).maps)
    (ho : ∀ c, (t.car c).sched.onAir = (s.car c).sched.onAir) (hi : ∀ c, (t.car c).sched.incoming = (s.car c).sched.incoming)
    (hs : ∀ c, (t.car c).sched.stack = (s.car c).sched.stack) (h : Scheduled s) : Scheduled t := by
  unfold Scheduled TableOrdered ClaimsPlaced BatchesPlaced findBatch at *
  simp only [hb, hm, ho, hi, hs]
  exact h

theorem clearClaim_get {id x : BatchId} {m : ClaimMap} {i : Fin 32} :
    (clearClaim id m).get i = some x ↔ m.get i = some x ∧ x ≠ id := by
  have : (clearClaim id m).get i = (fun e => if e = some id then none else e) (m.get i) := by
    unfold clearClaim; simp [Vector.get]
  rw [this]
  dsimp only
  constructor
  · intro h; split at h
    · cases h
    · next hn => exact ⟨h, fun e => hn (by rw [h, e])⟩
  · rintro ⟨h, hn⟩; rw [if_neg (by rw [h]; simpa using hn), h]

/-- The end of a batch keeps the agreement (R60, R61, R94, R96). -/
theorem scheduled_endBatch {s : State} (h : Scheduled s) (id : BatchId) (why : EndReason) : Scheduled (endBatch id why s) := by
  cases hf : findBatch id s with
  | none => rw [endBatch_none hf]; exact h
  | some b =>
    obtain ⟨e1, -, e3, e4, e5⟩ := endBatch_some hf why
    obtain ⟨ht, hc⟩ := h
    refine ⟨tableOrdered_endBatch ht id why, fun c => ?_⟩
    have hfind : ∀ x c', x ≠ id → (∃ b', findBatch x s = some b' ∧ b'.carrier = c') →
        ∃ b', findBatch x (endBatch id why s) = some b' ∧ b'.carrier = c' := by
      rintro x c' hx ⟨b', h1, h2⟩; exact ⟨b', by rw [e3, if_neg hx]; exact h1, h2⟩
    by_cases hcb : c = b.carrier
    · subst hcb
      obtain ⟨hcl, hb⟩ := hc b.carrier
      unfold ClaimsPlaced BatchesPlaced at *
      simp only [e4, dropFromCarrier] at *
      obtain ⟨hst, hnd, hrec, hair, hstack, hinc⟩ := hb
      refine ⟨⟨fun hl => ⟨fun i => ?_, fun i => ?_⟩, fun n hl i x => ⟨fun hx => ?_, fun hx => ?_⟩⟩, ?_, ?_, ?_, ?_, ?_, ?_⟩
      · cases hh : (clearClaim id (s.car b.carrier).maps.current).get i with
        | none => rfl
        | some x => have := (clearClaim_get.1 hh).1; rw [(hcl.1 hl).1 i] at this; cases this
      · cases hh : (clearClaim id (s.car b.carrier).maps.next).get i with
        | none => rfl
        | some x => have := (clearClaim_get.1 hh).1; rw [(hcl.1 hl).2 i] at this; cases this
      · obtain ⟨hx, hne⟩ := clearClaim_get.1 hx
        obtain ⟨b', h1, h2, h3, h4, h5, h6⟩ := (hcl.2 n hl i x).1 hx
        refine ⟨b', by rw [e3, if_neg hne]; exact h1, h2, h3, h4, h5, ?_⟩
        split
        · simp
        · exact h6
      · obtain ⟨hx, hne⟩ := clearClaim_get.1 hx
        obtain ⟨b', h1, h2, h3, h4, h5, h6⟩ := (hcl.2 n hl i x).2 hx
        refine ⟨b', by rw [e3, if_neg hne]; exact h1, h2, h3, h4, h5, ?_⟩
        split
        · simp
        · exact h6
      · exact Nat.le_trans (List.length_filter_le _ _) hst
      · exact hnd.filter _
      · intro b' hb' hcar
        rw [e1, List.mem_filter] at hb'
        have hne : b'.id ≠ id := by simpa using hb'.2
        obtain ⟨h1, h2⟩ := hrec b' hb'.1 hcar
        refine ⟨?_, ?_⟩
        · rw [h1]; split
          · next he => rw [he]; simp [hne.symm]
          · rfl
        · rw [h2]; simp [hne]
      · intro x hx
        split at hx
        · cases hx
        · next hn => exact hfind x _ (fun e => hn (by rw [hx, e])) (hair x hx)
      · intro x hx
        rw [List.mem_filter] at hx
        exact hfind x _ (by simpa using hx.2) (hstack x hx.1)
      · intro x hx
        split at hx
        · cases hx
        · next hn =>
          obtain ⟨b', h1, h2, h3⟩ := hinc x hx
          exact ⟨b', by rw [e3, if_neg (fun e => hn (by rw [hx, e]))]; exact h1, h2, h3⟩
    · obtain ⟨hcl, hb⟩ := hc c
      have hne : ∀ x, (∃ b', findBatch x s = some b' ∧ b'.carrier = c) → x ≠ id := by
        rintro x ⟨b', h1, h2⟩ rfl
        rw [hf] at h1; exact hcb (by rw [← h2, Option.some.inj h1])
      unfold ClaimsPlaced BatchesPlaced at *
      simp only [e5 c hcb] at *
      obtain ⟨hst, hnd, hrec, hair, hstack, hinc⟩ := hb
      refine ⟨⟨hcl.1, fun n hl i x => ⟨fun hx => ?_, fun hx => ?_⟩⟩, hst, hnd, ?_, ?_, ?_, ?_⟩
      · obtain ⟨b', h1, h2, h3⟩ := (hcl.2 n hl i x).1 hx
        exact ⟨b', by rw [e3, if_neg (hne x ⟨b', h1, h2⟩)]; exact h1, h2, h3⟩
      · obtain ⟨b', h1, h2, h3⟩ := (hcl.2 n hl i x).2 hx
        exact ⟨b', by rw [e3, if_neg (hne x ⟨b', h1, h2⟩)]; exact h1, h2, h3⟩
      · intro b' hb' hcar
        rw [e1, List.mem_filter] at hb'
        exact hrec b' hb'.1 hcar
      · exact fun x hx => hfind x _ (hne x (hair x hx)) (hair x hx)
      · exact fun x hx => hfind x _ (hne x (hstack x hx)) (hstack x hx)
      · intro x hx
        obtain ⟨b', h1, h2, h3⟩ := hinc x hx
        exact ⟨b', by rw [e3, if_neg (hne x ⟨b', h1, h2⟩)]; exact h1, h2, h3⟩

/-- A record changed in nothing the agreement reads, but that a PENDING one may become COMPLETE, keeps it (R73). -/
theorem scheduled_modBatch {s : State} (h : Scheduled s) (id : BatchId) {f : Batch → Batch}
    (hf : ∀ b, (f b).id = b.id ∧ (f b).blocks.length = b.blocks.length ∧ (f b).slots = b.slots ∧ (f b).rate = b.rate)
    (hk : ∀ b, (f b).carrier = b.carrier ∧ (f b).start = b.start ∧ (f b).cycle = b.cycle)
    (hs : ∀ b, (f b).state = b.state ∨ (b.state = .pending ∧ (f b).state = .complete)) :
    Scheduled (modBatch id f s) := by
  obtain ⟨ht, hc⟩ := h
  have hfind : ∀ x b, findBatch x s = some b → ∃ b', findBatch x (modBatch id f s) = some b' ∧ (b' = b ∨ b' = f b) := by
    intro x b hb
    rw [findBatch_modBatch (fun b => (hf b).1)]
    split
    · exact ⟨f b, by rw [hb]; rfl, .inr rfl⟩
    · exact ⟨b, hb, .inl rfl⟩
  refine ⟨tableOrdered_modBatch ht id hf, fun c => ?_⟩
  obtain ⟨hcl, hst, hnd, hrec, hair, hstack, hinc⟩ := hc c
  unfold ClaimsPlaced BatchesPlaced at *
  rw [show (modBatch id f s).car c = s.car c by simp]
  refine ⟨⟨hcl.1, fun n hl i x => ⟨fun hx => ?_, fun hx => ?_⟩⟩, hst, hnd, ?_, ?_, ?_, ?_⟩
  · obtain ⟨b, h1, h2, h3, h4, h5, h6⟩ := (hcl.2 n hl i x).1 hx
    obtain ⟨b', h1', rfl | rfl⟩ := hfind x b h1
    · exact ⟨_, h1', h2, h3, h4, h5, h6⟩
    · refine ⟨_, h1', by rw [(hk b).1, h2], by rw [(hk b).2.1, h3], by rw [(hk b).2.2, h4], ?_, h6⟩
      rcases hs b with h | ⟨-, h⟩
      · rw [h]; exact h5
      · exact .inr h
  · obtain ⟨b, h1, h2, h3, h4, h5, h6⟩ := (hcl.2 n hl i x).2 hx
    obtain ⟨b', h1', rfl | rfl⟩ := hfind x b h1
    · exact ⟨_, h1', h2, h3, h4, h5, h6⟩
    · refine ⟨_, h1', by rw [(hk b).1, h2], by rw [(hk b).2.1, h3], by rw [(hk b).2.2, h4], ?_, h6⟩
      rcases hs b with h | ⟨-, h⟩
      · rw [h]; exact h5
      · exact .inr h
  · intro b' hb' hcar
    unfold modBatch at hb'
    rw [State.setBatches_batches, List.mem_map] at hb'
    obtain ⟨b, hb, rfl⟩ := hb'
    split at hcar
    · next hid =>
      rw [if_pos hid, (hf b).1]
      rw [(hk b).1] at hcar
      have := hrec b hb hcar
      rcases hs b with h | ⟨h0, h⟩
      · rw [h]; exact this
      · rw [h0] at this; rw [h]; simpa using this
    · next hid => rw [if_neg hid]; exact hrec b hb hcar
  · intro x hx
    obtain ⟨b, h1, h2⟩ := hair x hx
    obtain ⟨b', h1', rfl | rfl⟩ := hfind x b h1
    · exact ⟨_, h1', h2⟩
    · exact ⟨_, h1', by rw [(hk b).1, h2]⟩
  · intro x hx
    obtain ⟨b, h1, h2⟩ := hstack x hx
    obtain ⟨b', h1', rfl | rfl⟩ := hfind x b h1
    · exact ⟨_, h1', h2⟩
    · exact ⟨_, h1', by rw [(hk b).1, h2]⟩
  · intro x hx
    obtain ⟨b, h1, h2, h3⟩ := hinc x hx
    obtain ⟨b', h1', rfl | rfl⟩ := hfind x b h1
    · exact ⟨_, h1', h2, h3⟩
    · refine ⟨_, h1', by rw [(hk b).1, h2], ?_⟩
      rcases hs b with h | ⟨h0, h⟩
      · rw [h]; exact h3
      · exact .inl h

/-- The hand-over keeps the agreement: the incoming batch becomes the one ON_AIR (R96). -/
theorem scheduled_handOver {s : State} (h : Scheduled s) (c : Carrier) : Scheduled (handOver c s) := by
  by_cases hn : (s.car c).sched.onAir ≠ none ∨ (s.car c).sched.incoming = none
  · rw [handOver_none hn]; exact h
  · have ha : (s.car c).sched.onAir = none := by
      by_contra e; exact hn (.inl e)
    cases hi : (s.car c).sched.incoming with
    | none => exact absurd (Or.inr hi) hn
    | some id =>
      rw [handOver_some ha hi]
      obtain ⟨ht, hc⟩ := h
      have hfind : ∀ x (u : State), findBatch x (modBatch id (fun b => { b with state := .onAir }) u) =
          if x = id then (findBatch x u).map (fun b => { b with state := .onAir }) else findBatch x u :=
        fun x u => findBatch_modBatch (f := fun b => { b with state := .onAir }) (fun _ => rfl) u x
      obtain ⟨bi, hbi, hbc, hbs⟩ := (hc c).2.2.2.2.2.2 id hi
      refine ⟨tableOrdered_modBatch ht id fun b => ⟨rfl, rfl, rfl, rfl⟩, fun d => ?_⟩
      obtain ⟨hcl, hst, hnd, hrec, hair, hstack, hinc⟩ := hc d
      have hmap : ∀ x, (∃ b, findBatch x s = some b ∧ b.carrier = d) →
          ∃ b, findBatch x (modBatch id (fun b => { b with state := .onAir }) (modSched c (fun x => { x with
            onAir := some id, stop := none, incoming := none, stack := x.stack.filter fun y => y ≠ id }) s)) = some b ∧
            b.carrier = d := by
        rintro x ⟨b, h1, h2⟩
        rw [hfind, findBatch_congr (modSched_keeps _ _ _).2.2.1]
        split
        · exact ⟨{ b with state := .onAir }, by rw [h1]; rfl, h2⟩
        · exact ⟨_, h1, h2⟩
      have hclaim : ∀ x, (∃ b, findBatch x s = some b ∧ b.carrier = d ∧ (b.state = .pending ∨ b.state = .complete) ∧
          (s.car d).sched.incoming ≠ some x) → x ≠ id := by
        rintro x ⟨b, h1, h2, h3, h4⟩ rfl
        rw [hbi] at h1
        obtain rfl := Option.some.inj h1
        rw [hbc] at h2; subst h2; exact h4 hi
      by_cases hd : d = c
      · subst hd
        unfold ClaimsPlaced BatchesPlaced
        rw [(modBatch_keeps _ _ _).2.2.2.2.2.2.2.2.2.2.2 d]
        simp only [modSched, State.modCar_car_same]
        refine ⟨⟨hcl.1, fun n hl i x => ⟨fun hx => ?_, fun hx => ?_⟩⟩, ?_, ?_, ?_, ?_, ?_, ?_⟩
        · obtain ⟨b, h1, h2, h3, h4, h5, h6⟩ := (hcl.2 n hl i x).1 hx
          have hne := hclaim x ⟨b, h1, h2, h5, h6⟩
          refine ⟨b, ?_, h2, h3, h4, h5, by simp⟩
          have := hfind x (s.modCar d fun k => { k with sched := { k.sched with
            onAir := some id, stop := none, incoming := none, stack := k.sched.stack.filter fun y => y ≠ id } })
          rw [if_neg hne] at this; exact this.trans h1
        · obtain ⟨b, h1, h2, h3, h4, h5, h6⟩ := (hcl.2 n hl i x).2 hx
          have hne := hclaim x ⟨b, h1, h2, h5, h6⟩
          refine ⟨b, ?_, h2, h3, h4, h5, by simp⟩
          have := hfind x (s.modCar d fun k => { k with sched := { k.sched with
            onAir := some id, stop := none, incoming := none, stack := k.sched.stack.filter fun y => y ≠ id } })
          rw [if_neg hne] at this; exact this.trans h1
        · exact Nat.le_trans (List.length_filter_le _ _) hst
        · exact hnd.filter _
        · intro b' hb' hcar
          unfold modBatch at hb'
          rw [State.setBatches_batches, List.mem_map] at hb'
          obtain ⟨b, hb, rfl⟩ := hb'
          by_cases hid : b.id = id
          · rw [if_pos hid]; simp [hid]
          · rw [if_neg hid] at hcar ⊢
            obtain ⟨h1, h2⟩ := hrec b hb hcar
            refine ⟨?_, ?_⟩
            · rw [h1, ha]; simp [Ne.symm hid]
            · rw [h2]; simp [hid]
        · intro x hx
          obtain rfl := Option.some.inj hx
          exact hmap id ⟨bi, hbi, hbc⟩
        · intro x hx
          rw [List.mem_filter] at hx
          exact hmap x (hstack x hx.1)
        · intro x hx; cases hx
      · unfold ClaimsPlaced BatchesPlaced
        have hcar : (modBatch id (fun b => { b with state := .onAir }) (modSched c (fun x => { x with
            onAir := some id, stop := none, incoming := none, stack := x.stack.filter fun y => y ≠ id }) s)).car d = s.car d := by
          rw [(modBatch_keeps _ _ _).2.2.2.2.2.2.2.2.2.2.2 d]; simp [hd]
        have hne : ∀ x b, findBatch x s = some b → b.carrier = d → x ≠ id := by
          rintro x b h1 h2 rfl
          rw [hbi] at h1
          obtain rfl := Option.some.inj h1
          exact hd (h2.symm.trans hbc)
        have hsame : ∀ x, x ≠ id → findBatch x (modBatch id (fun b => { b with state := .onAir }) (modSched c (fun x => { x with
            onAir := some id, stop := none, incoming := none, stack := x.stack.filter fun y => y ≠ id }) s)) =
            findBatch x s := by
          intro x hx
          rw [hfind, if_neg hx, findBatch_congr (modSched_keeps _ _ _).2.2.1]
        rw [hcar]
        refine ⟨⟨hcl.1, fun n hl i x => ⟨fun hx => ?_, fun hx => ?_⟩⟩, hst, hnd, ?_, ?_, ?_, ?_⟩
        · obtain ⟨b, h1, h2, h3⟩ := (hcl.2 n hl i x).1 hx
          exact ⟨b, by rw [hsame x (hne x b h1 h2)]; exact h1, h2, h3⟩
        · obtain ⟨b, h1, h2, h3⟩ := (hcl.2 n hl i x).2 hx
          exact ⟨b, by rw [hsame x (hne x b h1 h2)]; exact h1, h2, h3⟩
        · intro b' hb' hcb
          unfold modBatch at hb'
          rw [State.setBatches_batches, List.mem_map] at hb'
          obtain ⟨b, hb, rfl⟩ := hb'
          have hid : b.id ≠ id := by
            intro e
            rw [if_pos e] at hcb
            exact hne b.id b (findBatch_of_mem ht (by simpa using hb)) hcb e
          rw [if_neg hid] at hcb ⊢
          exact hrec b (by simpa using hb) hcb
        · exact fun x hx => hmap x (hair x hx)
        · exact fun x hx => hmap x (hstack x hx)
        · intro x hx
          obtain ⟨b, h1, h2, h3⟩ := hinc x hx
          exact ⟨b, by rw [hsame x (hne x b h1 h2)]; exact h1, h2, h3⟩

/-! ### Operations that change no record's place -/

theorem scheduled_assignByRun {s : State} (h : Scheduled s) (c : Carrier) (k : OutcomeCode) (id : BatchId) :
    Scheduled (assignByRun c k id s) :=
  scheduled_congr (by simp) (by simp) (by simp) (by simp) (by simp) h

theorem scheduled_assignCode {s : State} (h : Scheduled s) (c : Carrier) (sl : SlotRef) (k : OutcomeCode)
    (id : Option BatchId) : Scheduled (assignCode c sl k id s) :=
  scheduled_congr (by simp) (by simp) (by simp) (by simp) (by simp) h

theorem setBack_both {s : State} (r : Run) :
    (Scheduled s → Scheduled (setBack r s)) ∧ (BlocksAccounted s → BlocksAccounted (setBack r s)) := by
  unfold setBack
  split
  · split
    · exact ⟨id, id⟩
    · exact ⟨fun h => scheduled_modBatch h _ (fun _ => ⟨rfl, rfl, rfl, rfl⟩) (fun _ => ⟨rfl, rfl, rfl⟩) fun _ => .inl rfl,
        fun h => blocksAccounted_modBatch h _ fun _ => ⟨rfl, rfl, rfl, rfl⟩⟩
  · exact ⟨id, id⟩

/-- A fold keeps a property that each of its steps keeps. -/
theorem foldl_inv {β : Type} {P : State → Prop} {f : State → β → State} (h : ∀ s x, P s → P (f s x)) (l : List β) {s : State}
    (hs : P s) : P (l.foldl f s) := by
  induction l generalizing s with
  | nil => exact hs
  | cons x xs ih => exact ih (h s x hs)

/-- The immediate release keeps the account and the agreement (R117). -/
theorem releaseNow_both {s : State} (c : Carrier) (x : Option SlotRef) :
    (Scheduled s → Scheduled (releaseNow c x s)) ∧ (BlocksAccounted s → BlocksAccounted (releaseNow c x s)) := by
  unfold releaseNow
  split
  · exact ⟨id, id⟩
  · dsimp only
    refine ⟨fun h => ?_, fun h => ?_⟩
    · refine scheduled_congr (s := ((s.car c).timer.runs.foldl (fun s r => setBack r s)
        (((s.car c).timer.runs.filter fun r => some r.slot ≠ x).foldl (fun s r => cutRun c r s) s))) (by simp) ?_ ?_ ?_ ?_ ?_
      · intro d; rw [State.modCar_car]; split <;> simp_all
      · intro d; rw [State.modCar_car]; split <;> simp_all
      · intro d; rw [State.modCar_car]; split <;> simp_all
      · intro d; rw [State.modCar_car]; split <;> simp_all
      · exact foldl_inv (P := Scheduled) (fun s r => (setBack_both r).1) _
          (foldl_inv (P := Scheduled) (fun s r h => scheduled_assignCode h _ _ _ _) _ h)
    · refine blocksAccounted_congr (s := ((s.car c).timer.runs.foldl (fun s r => setBack r s)
        (((s.car c).timer.runs.filter fun r => some r.slot ≠ x).foldl (fun s r => cutRun c r s) s))) (by simp) (by simp) ?_
      exact foldl_inv (P := BlocksAccounted) (fun s r => (setBack_both r).2) _
          (foldl_inv (P := BlocksAccounted) (fun s r h => blocksAccounted_congr (by simp) (by simp) h) _ h)

theorem releaseAll_both {s : State} :
    (Scheduled s → Scheduled (releaseAll s)) ∧ (BlocksAccounted s → BlocksAccounted (releaseAll s)) :=
  ⟨fun h => (releaseNow_both _ _).1 ((releaseNow_both _ _).1 ((releaseNow_both _ _).1 ((releaseNow_both _ _).1 h))),
    fun h => (releaseNow_both _ _).2 ((releaseNow_both _ _).2 ((releaseNow_both _ _).2 ((releaseNow_both _ _).2 h)))⟩

/-! ### The flush (R77, R78, R79) -/

theorem findBatch_flushBatch (why : EndReason) (b : Batch) (s : State) (x : BatchId) :
    findBatch x (flushBatch why b s) = if x = b.id then none else findBatch x s := by
  unfold flushBatch
  split
  · exact findBatch_endBatch _ _ _ _
  · split
    · rw [findBatch_endBatch, findBatch_congr (assignByRun_keeps _ _ _ _).2.2.1]
    · exact findBatch_endBatch _ _ _ _

theorem flushBatch_both {s : State} (why : EndReason) (b : Batch) :
    (Scheduled s → Scheduled (flushBatch why b s)) ∧ (BlocksAccounted s → BlocksAccounted (flushBatch why b s)) := by
  unfold flushBatch
  refine ⟨fun h => ?_, fun h => ?_⟩
  · split
    · exact scheduled_endBatch h _ _
    · split
      · exact scheduled_endBatch (scheduled_assignByRun h _ _ _) _ _
      · exact scheduled_endBatch h _ _
  · split
    · exact blocksAccounted_endBatch h _ _
    · split
      · exact blocksAccounted_endBatch (blocksAccounted_congr (by simp) (by simp) h) _ _
      · exact blocksAccounted_endBatch h _ _

/-- A table in which nothing is found is empty. -/
theorem batches_nil {s : State} (h : ∀ x, findBatch x s = none) : s.batches = [] := by
  cases hl : s.batches with
  | nil => rfl
  | cons b bs => exact absurd rfl (findBatch_none.1 (h b.id) b (by rw [hl]; simp))

theorem emptyMap_empty : EmptyMap ClaimMap.empty := by unfold EmptyMap; decide

/-- With every map empty and no record left, no batch stands anywhere. -/
theorem scheduled_emptied {s : State} (h : Scheduled s) (hb : s.batches = []) (c : Carrier) :
    (s.car c).sched.onAir = none ∧ (s.car c).sched.incoming = none ∧ (s.car c).sched.stack = [] := by
  have hn : ∀ x, findBatch x s = none := fun x => by unfold findBatch; rw [hb]; rfl
  obtain ⟨-, -, -, -, hair, hstack, hinc⟩ := h.2 c
  refine ⟨?_, ?_, ?_⟩
  · cases ho : (s.car c).sched.onAir with
    | none => rfl
    | some x => obtain ⟨b, h1, -⟩ := hair x ho; rw [hn] at h1; cases h1
  · cases ho : (s.car c).sched.incoming with
    | none => rfl
    | some x => obtain ⟨b, h1, -⟩ := hinc x ho; rw [hn] at h1; cases h1
  · cases ho : (s.car c).sched.stack with
    | nil => rfl
    | cons x xs => obtain ⟨b, h1, -⟩ := hstack x (by rw [ho]; simp); rw [hn] at h1; cases h1

/-- The store with no record in the table: every block FREE (R80). -/
theorem blocksAccounted_emptied {s : State} (h : BlocksAccounted s) (hb : s.batches = []) :
    s.store.freeCount = 2048 ∧ ∀ n, n < 2048 → (readBlock n s).tag = .free := by
  obtain ⟨-, -, -, h4, -, h6⟩ := h
  have hh : heldBlocks s = [] := by unfold heldBlocks; rw [hb]; rfl
  rw [hh] at h4 h6
  exact ⟨h6, fun n hn => (h4 n hn).2 (by simp)⟩

/-- The flush empties the table (R77, R78). -/
theorem flushAll_batches (why : EndReason) (s : State) : (flushAll why s).batches = [] := by
  apply batches_nil
  intro x
  unfold flushAll
  rw [findBatch_congr (emptyMaps_keeps _).2.2.1]
  have : ∀ (l : List Batch) (u : State), findBatch x (l.foldl (fun s b => flushBatch why b s) u) =
      if (l.any fun b => b.id = x) then none else findBatch x u := by
    intro l
    induction l with
    | nil => intro u; rfl
    | cons b bs ih =>
      intro u
      rw [List.foldl_cons, ih, findBatch_flushBatch]
      by_cases h1 : b.id = x
      · simp [h1]
      · simp [h1, Ne.symm h1]
  rw [this]
  split
  · rfl
  · next h => rw [findBatch_none]; intro b hb e; exact h (List.any_eq_true.2 ⟨b, hb, by simpa using e⟩)

/-- What the flush leaves on a carrier: empty maps, nothing on air, incoming or on the stack; the store all FREE (R77 to R80). -/
theorem flushAll_spec (why : EndReason) {s : State} (h : Scheduled s) :
    Scheduled (flushAll why s) ∧ (BlocksAccounted s → BlocksAccounted (flushAll why s)) ∧
    ∀ c, EmptyMap ((flushAll why s).car c).maps.current ∧ EmptyMap ((flushAll why s).car c).maps.next ∧
      ((flushAll why s).car c).sched.onAir = none ∧ ((flushAll why s).car c).sched.incoming = none ∧
      ((flushAll why s).car c).sched.stack = [] := by
  have h1 : Scheduled (s.batches.foldl (fun s b => flushBatch why b s) s) :=
    foldl_inv (P := Scheduled) (fun _ _ => (flushBatch_both _ _).1) _ h
  have hm : ∀ c, ((flushAll why s).car c).maps.current = ClaimMap.empty ∧
      ((flushAll why s).car c).maps.next = ClaimMap.empty := by
    intro c; simp [flushAll, emptyMaps]
  have hs : Scheduled (flushAll why s) := by
    obtain ⟨ht, hc⟩ := h1
    refine ⟨ht, fun c => ⟨⟨fun _ => ?_, fun n hl i x => ?_⟩, ?_⟩⟩
    · rw [(hm c).1, (hm c).2]; exact ⟨emptyMap_empty, emptyMap_empty⟩
    · rw [(hm c).1, (hm c).2, emptyMap_empty i]; exact ⟨fun h => (by cases h), fun h => (by cases h)⟩
    · have := (hc c).2
      unfold BatchesPlaced findBatch at *
      simpa [flushAll] using this
  refine ⟨hs, fun hb => ?_, fun c => ⟨?_, ?_, scheduled_emptied hs (flushAll_batches why s) c⟩⟩
  · unfold flushAll
    exact blocksAccounted_congr (s := s.batches.foldl (fun s b => flushBatch why b s) s) (by simp) (by simp)
      (foldl_inv (P := BlocksAccounted) (fun _ _ => (flushBatch_both _ _).2) _ hb)
  · rw [(hm c).1]; exact emptyMap_empty
  · rw [(hm c).2]; exact emptyMap_empty

end Sys2Proof.Machine
end

