-- ==== Sys2Proof/Laws/Flush.lean ====
section
/-! SUPPORT. The release of every carrier, the abort of a probe, and the two together with the flush: what a loss of timing and a
renumbering leave (R2, R13, R15, R77, R78, R104, R117, R148). -/

namespace Sys2Proof.Machine

open Sys2Proof.Safety

/-- A carrier without runs has none after another batch ends (R97). -/
theorem endBatch_noRuns (id : BatchId) (why : EndReason) {s : State} {d : Carrier} (h : NoRuns (s.car d).timer) :
    NoRuns ((endBatch id why s).car d).timer := by
  cases hf : findBatch id s with
  | none => rw [endBatch_none hf]; exact h
  | some b =>
    obtain ⟨-, -, -, e4, e5⟩ := endBatch_some hf why
    by_cases hd : d = b.carrier
    · subst hd
      obtain ⟨h1, h2, h3⟩ := h
      rw [e4]; exact ⟨by simp [dropFromCarrier, h1], by simp [dropFromCarrier, h2], by simp [dropFromCarrier, h3]⟩
    · rw [e5 d hd]; exact h

theorem flushBatch_noRuns (why : EndReason) (b : Batch) {s : State} {d : Carrier} (h : NoRuns (s.car d).timer) :
    NoRuns ((flushBatch why b s).car d).timer := by
  unfold flushBatch
  split
  · exact endBatch_noRuns _ _ h
  · split
    · exact endBatch_noRuns _ _ (by simpa using h)
    · exact endBatch_noRuns _ _ h

theorem flushAll_noRuns (why : EndReason) {s : State} {d : Carrier} (h : NoRuns (s.car d).timer) :
    NoRuns ((flushAll why s).car d).timer := by
  have := foldl_inv (P := fun t => NoRuns (t.car d).timer) (f := fun s b => flushBatch why b s)
    (fun _ b h => flushBatch_noRuns why b h) s.batches h
  simpa [flushAll] using this

/-- The release of every carrier: a key not in PROBE is RELEASED with no run, the word C of the active bank and no opening run;
one in PROBE is left (R117). -/
theorem releaseAll_spec (s : State) (d : Carrier) :
    ((s.car d).key = .probe → (releaseAll s).car d = s.car d) ∧
    ((s.car d).key ≠ .probe →
      ((releaseAll s).car d).key = .released ∧ NoRuns ((releaseAll s).car d).timer ∧
      ((releaseAll s).car d).word = centreWord (activeWords d s) ∧
      ((releaseAll s).car d).monitor = { (s.car d).monitor with
        presence := presenceAtRelease s.now (s.car d), opening := none }) := by
  have hp : ∀ (c : Carrier) (u : State), (u.car c).key = .probe → (releaseNow c none u).car c = u.car c :=
    fun c u h => by rw [(releaseNow_same c none u).1 h]
  have hn : ∀ (c : Carrier) (u : State), (u.car c).key ≠ .probe →
      ((releaseNow c none u).car c).key = .released ∧ NoRuns ((releaseNow c none u).car c).timer ∧
      ((releaseNow c none u).car c).word = centreWord (activeWords c u) ∧
      ((releaseNow c none u).car c).monitor = { (u.car c).monitor with
        presence := presenceAtRelease u.now (u.car c), opening := none } := by
    intro c u h
    obtain ⟨h1, -⟩ := (releaseNow_same c none u).2 h
    rw [h1]; exact ⟨rfl, ⟨rfl, rfl, rfl⟩, rfl, rfl⟩
  have ha : ∀ (c : Carrier) (u t : State), t.align = u.align → activeWords c t = activeWords c u := by
    intro c u t h; unfold activeWords activeRecord; rw [h]
  unfold releaseAll
  cases d
  · simp only [releaseNow_keeps, ne_eq, reduceCtorEq, not_false_eq_true]
    exact ⟨hp _ _, hn _ _⟩
  · have hc : (releaseNow .c1 none s).car .c2 = s.car .c2 := by simp
    have := hn .c2 (releaseNow .c1 none s)
    have := hp .c2 (releaseNow .c1 none s)
    simp only [releaseNow_keeps, ne_eq, reduceCtorEq, not_false_eq_true, hc, ha .c2 s (releaseNow .c1 none s)] at *
    exact ⟨by assumption, by assumption⟩
  · have hc : (releaseNow .c2 none (releaseNow .c1 none s)).car .c3 = s.car .c3 := by simp
    have := hn .c3 (releaseNow .c2 none (releaseNow .c1 none s))
    have := hp .c3 (releaseNow .c2 none (releaseNow .c1 none s))
    simp only [releaseNow_keeps, ne_eq, reduceCtorEq, not_false_eq_true, hc,
      ha .c3 s (releaseNow .c2 none (releaseNow .c1 none s))] at *
    exact ⟨by assumption, by assumption⟩
  · have hc : (releaseNow .c3 none (releaseNow .c2 none (releaseNow .c1 none s))).car .c4 = s.car .c4 := by simp
    have := hn .c4 (releaseNow .c3 none (releaseNow .c2 none (releaseNow .c1 none s)))
    have := hp .c4 (releaseNow .c3 none (releaseNow .c2 none (releaseNow .c1 none s)))
    simp only [releaseNow_keeps, ne_eq, reduceCtorEq, not_false_eq_true, hc,
      ha .c4 s (releaseNow .c3 none (releaseNow .c2 none (releaseNow .c1 none s)))] at *
    exact ⟨by assumption, by assumption⟩

/-- An abort keeps the account and the agreement, and returns the key: afterwards no key is in PROBE (R127, R148). -/
theorem abortProbe_spec {s : State} (h : ProbeHoldsKey s) (d : Carrier) : ((abortProbe s).car d).key ≠ .probe := by
  intro hk
  obtain ⟨h1, h2⟩ := h
  unfold abortProbe at hk
  split at hk
  · next hb =>
    obtain ⟨hc, hp⟩ := h1 d hk
    rcases Bool.or_eq_true _ _ |>.mp hb with hb | hb
    · simp only [Probe.busy, ne_eq, decide_not, Bool.not_not, decide_eq_true_eq] at hb
      rw [hb] at hp; rcases hp with hp | hp <;> cases hp
    · rw [h2 hb] at hp; rcases hp with hp | hp <;> cases hp
  · split at hk
    · next hp =>
      simp only [endProbe_keeps] at hk
      have := (h1 d hk).2; rw [hp] at this; rcases this with h | h <;> cases h
    · next hp =>
      simp only [State.setProbe_car] at hk
      have := (h1 d hk).2; rw [hp] at this; rcases this with h | h <;> cases h
    · simp only [State.setProbe_car, returnKey] at hk
      split at hk
      · next hq =>
        by_cases hd : d = s.probe.carrier
        · subst hd; rw [dropKey_same] at hk; cases hk
        · rw [(dropKey_keeps _ _).2.2.2.2.2.2.2.2.2.2.2 d hd] at hk; exact hd (h1 d hk).1.symm
      · next hq =>
        have := (h1 d hk).1
        subst this; exact hq hk

/-- A loss of timing: every batch has ended, the store is all FREE, no claim, run, stack or key stands (R2, R13, R77, R104,
R117). -/
theorem timingLoss_spec {s : State} (hs : Scheduled s) (hp : ProbeHoldsKey s) :
    (timingLoss s).batches = [] ∧
    (BlocksAccounted s → (timingLoss s).store.freeCount = 2048 ∧ ∀ n, n < 2048 → (readBlock n (timingLoss s)).tag = .free) ∧
    Scheduled (timingLoss s) ∧ (BlocksAccounted s → BlocksAccounted (timingLoss s)) ∧
    ∀ c, Idle ((timingLoss s).car c) ∧ ((timingLoss s).car c).key = .released ∧
      ((timingLoss s).car c).word = centreWord (activeWords c s) ∧ ((timingLoss s).car c).monitor.opening = none := by
  have h1 : Scheduled (releaseAll (abortProbe s)) :=
    releaseAll_both.1 (scheduled_congr (by simp) (by simp) (by simp) (by simp) (by simp) hs)
  have h2 : BlocksAccounted s → BlocksAccounted (releaseAll (abortProbe s)) :=
    fun h => releaseAll_both.2 (blocksAccounted_congr (by simp) (by simp) h)
  obtain ⟨f1, f2, f3⟩ := flushAll_spec .noTiming h1
  refine ⟨flushAll_batches _ _, fun hb => blocksAccounted_emptied (f2 (h2 hb)) (flushAll_batches _ _), f1,
    fun hb => f2 (h2 hb), fun c => ?_⟩
  obtain ⟨r1, r2, r3, r4⟩ := (releaseAll_spec (abortProbe s) c).2 (abortProbe_spec hp c)
  obtain ⟨g1, g2, g3, g4, g5⟩ := f3 c
  refine ⟨⟨g1, g2, flushAll_noRuns _ r2, g3, g4, g5⟩, ?_, ?_, ?_⟩
  · simp [timingLoss, r1]
  · have : activeWords c (abortProbe s) = activeWords c s := by unfold activeWords activeRecord; simp
    simp [timingLoss, r3, this]
  · simp [timingLoss, r4]

/-- A renumbering's flush: every batch has ended, the store is all FREE, and every key but a probe's is released with its runs
(R15, R78, R105, R117). -/
theorem renumberingFlush_spec {s : State} (hs : Scheduled s) :
    (renumberingFlush s).batches = [] ∧
    (BlocksAccounted s → (renumberingFlush s).store.freeCount = 2048 ∧
      ∀ n, n < 2048 → (readBlock n (renumberingFlush s)).tag = .free) ∧
    Scheduled (renumberingFlush s) ∧ (BlocksAccounted s → BlocksAccounted (renumberingFlush s)) ∧
    (renumberingFlush s).mgmt.alarms = s.mgmt.alarms ||| 16 ∧
    ∀ c, EmptyMap ((renumberingFlush s).car c).maps.current ∧ EmptyMap ((renumberingFlush s).car c).maps.next ∧
      ((renumberingFlush s).car c).sched.onAir = none ∧ ((renumberingFlush s).car c).sched.incoming = none ∧
      ((renumberingFlush s).car c).sched.stack = [] ∧
      ((s.car c).key ≠ .probe → ((renumberingFlush s).car c).key = .released ∧ NoRuns ((renumberingFlush s).car c).timer) := by
  have h1 : Scheduled (releaseAll (latch .epochRenumbered s)) :=
    releaseAll_both.1 (scheduled_congr (by simp) (by simp) (by simp) (by simp) (by simp) hs)
  have h2 : BlocksAccounted s → BlocksAccounted (releaseAll (latch .epochRenumbered s)) :=
    fun h => releaseAll_both.2 (blocksAccounted_congr (by simp) (by simp) h)
  obtain ⟨f1, f2, f3⟩ := flushAll_spec .epochRenumbered h1
  refine ⟨flushAll_batches _ _, fun hb => blocksAccounted_emptied (f2 (h2 hb)) (flushAll_batches _ _), f1,
    fun hb => f2 (h2 hb), ?_, fun c => ?_⟩
  · simp only [renumberingFlush, flushAll_keeps, releaseAll_keeps]; rfl
  · obtain ⟨g1, g2, g3, g4, g5⟩ := f3 c
    refine ⟨g1, g2, g3, g4, g5, fun hk => ?_⟩
    obtain ⟨r1, r2, -⟩ := (releaseAll_spec (latch .epochRenumbered s) c).2 (by simpa using hk)
    exact ⟨by simp [renumberingFlush, r1], flushAll_noRuns _ r2⟩

end Sys2Proof.Machine
end

