-- ==== Sys2Proof/WellFormed.lean ====
section
/-! DEFINITION. Which commands the link and the pins can present. -/

namespace Sys2Proof

/-- A body fits the length octet (R153: 0 to 255 octets). -/
def bodyFits (body : List Byte) : Bool := body.length ≤ 255

/-- Well-formed commands: a frame's body fits its length octet, and UNKNOWN_REQUEST carries a kind the link does not
define for a site. Every other operand is in range by its type. -/
def Instr.wellFormed (i : Instr) : Bool :=
  match i with
  | .timeMark f | .batchHeader f | .batchBlock f | .cancel f | .loadSite f | .enableService f | .restart f
  | .status f | .counters f | .clearAlarms f | .loadAlign f | .commitAlign f | .readAlign f | .epochSet f
  | .schedule f | .standby f | .markerLoad f | .markerClear f | .probeStart f | .probeAbort f | .probeResult f
  | .guardTest f => bodyFits f.body
  | .unknownRequest k f => kindUnknown k && bodyFits f.body
  | .downFrameRelay f => bodyFits f.body
  | .powerOn _ | .resetPin _ | .clockLost | .clockReturn | .epochPulse | .holdoverEpochStart
  | .repeatTxStart | .repeatTxEnd | .upTxStart | .upTxEnd | .tableRoll | .currentCycleAdvance _ | .slotDecision _
  | .keyUp _ | .symbolEmit _ | .payloadEnd _ | .tailExpiry _ | .wakeExpiry _ | .slotEnd _ | .rfSenseChange _ _
  | .stuckCarrier _ | .modSenseChange _ | .loadSettleEnd | .keyUpEnd | .probeEmission | .edgeWindowClose
  | .probePhaseEnd | .keyDownEnd | .loadReturnEnd | .observeEnd | .referenceClockEdge | .syncWordMatch _ _ => true

end Sys2Proof
end

