-- ==== Sys2Proof/Tests/Slice0.lean ====
section
/-! SUPPORT. The model's own tests: the well-formedness checks, the figures the manual works out, one-step tests, and for each
statement with hypotheses a state and operands that meet them (`met_<statement>`). -/

namespace Sys2Proof.Tests

set_option Elab.async false


open Sys2Proof.Machine Sys2Proof.Safety

/-! ### Well-formed commands: one ill-formed term for each check -/

/-- A body of 256 octets, one more than the length octet counts. -/
def longBody : List Byte := List.replicate 256 0

/-- A frame to site 291 (the address of 09, section 9.9) from source 5 with tag 7 and a good check. -/
def rq (k : Byte) (body : List Byte) : RxFrame :=
  { dest := 291, src := 5, tag := 7, body := body
    check := crc (checkedOctets { dest := 291, src := 5, kind := k, tag := 7, body := body, check := 0 }) }

theorem test_wellFormed_taken : (Instr.status (rq 0x23 [])).wellFormed = true := by decide +kernel
theorem test_wellFormed_longest : (Instr.status { rq 0x23 [] with body := List.replicate 255 0 }).wellFormed = true := by
  decide +kernel
theorem test_illFormed_body : (Instr.status { rq 0x23 [] with body := longBody }).wellFormed = false := by decide +kernel
theorem test_illFormed_down :
    (Instr.downFrameRelay ({ rq 0x80 [] with body := longBody }.withKind 0x80)).wellFormed = false := by decide +kernel
theorem test_illFormed_unknown_body :
    (Instr.unknownRequest 0x26 { rq 0x26 [] with body := longBody }).wellFormed = false := by decide +kernel
theorem test_illFormed_unknown_kind : (Instr.unknownRequest 0x23 (rq 0x23 [])).wellFormed = false := by decide +kernel

/-! ### The queue and the words of the table -/

theorem test_no_word_decodes : decodeTableWord 8 0x23 = none := rfl
theorem test_withFetchWord : State.reset.withFetchWord 8 0x23 = State.reset := rfl
theorem test_step_front : ∃ t, step (State.reset.setPending [.epochPulse, .clockLost]) = .next t ∧ t.pending = [.clockLost] :=
  ⟨_, rfl, rfl⟩

/-! ### The check (R154: the published value of this check over the nine digits is 29B1h, PRESUMED) -/

theorem test_crc : crc [0x31, 0x32, 0x33, 0x34, 0x35, 0x36, 0x37, 0x38, 0x39] = 0x29B1 := by decide +kernel

/-! ### The slot of carrier 2 worked out in 02, section 2.5 -/

/-- The grid of epoch 4n + 1 there. -/
def workedGrid : Grid := { pred := fxAdd (tickFx 123446789000) (80000012 * 8192 : Nat), sum8 := 80000012 }

/-- Slot 10, position 2 of that epoch, in cycle 7. -/
def workedSlot : SlotRef := { cycle := 7, index := 10, pos := 2, grid := workedGrid }

theorem test_worked_pred : workedGrid.pred = tickFx 123456789001 + 32768 := by decide +kernel
theorem test_worked_slotStart : slotStart workedSlot = tickFx 123459289001 + 57344 := by decide +kernel
theorem test_worked_decision : decisionInstant (slotStart workedSlot) 20 = 123459064001 := by decide +kernel
theorem test_worked_lfx : offsetFx (launchOffset (rawOffset 312345 1840)) = 203492557 := by decide +kernel
theorem test_worked_tfx : symbolStep 80000012 RateClass.b.perSecond = 327680049 := by decide +kernel

/-- The run formed there: a rate B batch on a carrier with G 10,923, C 200, offset 312,345 ns and delay 1,840 ns. -/
def workedRun : Run :=
  { slot := workedSlot, launch := fxAdd (slotStart workedSlot) (offsetFx (launchOffset (rawOffset 312345 1840)))
    tfx := symbolStep 80000012 RateClass.b.perSecond, symbols := RateClass.b.symbols, pos := 0
    words := { gain := 10923, centre := 200 }, content := .batch 9 0 6 .level4 { index := 5, count := 40 }, ended := false }

theorem test_worked_keyUp : keyUpInstant workedRun 20 = 123459092106 := by decide +kernel
theorem test_worked_symbol0 : fxTick (workedRun.instant 0) = 123459292106 := by decide +kernel
theorem test_worked_symbol100 : fxTick (workedRun.instant 100) = 123459792106 := by decide +kernel
theorem test_worked_symbol101 : fxTick (workedRun.instant 101) = 123459797107 := by decide +kernel
theorem test_worked_symbol239 : fxTick (workedRun.instant 239) = 123460487107 := by decide +kernel
theorem test_worked_payloadEnd : workedRun.payloadEnd = 123460492107 := by decide +kernel

/-! ### The clamped offset of 02, section 2.7, and the words of section 2.6 -/

theorem test_clamped_offset : offsetClamped (rawOffset (-2499000) 1500) = true ∧
    offsetFx (launchOffset (rawOffset (-2499000) 1500)) = -1638400000 := by decide +kernel
theorem test_unclamped_offset : offsetClamped (rawOffset 1000 1500) = false ∧
    offsetFx (launchOffset (rawOffset 1000 1500)) = -327680 := by decide +kernel
theorem test_word_plus3 : wordOf { gain := 10923, centre := 200 } 3 = 4296 := by decide +kernel
theorem test_word_minus1 : wordOf { gain := 10923, centre := 200 } (-1) = -1165 := by decide +kernel
theorem test_word_half_up : wordOf { gain := 10924, centre := 0 } 1 = 1366 := by decide +kernel
theorem test_word_half_down : wordOf { gain := 10924, centre := 0 } (-1) = -1366 := by decide +kernel
theorem test_word_clamped : wordOf { gain := 65535, centre := 10000 } 3 = 32767 ∧
    wordClamped { gain := 65535, centre := 10000 } 3 = true ∧ wordOf { gain := 65535, centre := 10000 } (-3) = -14576 := by
  decide +kernel

/-! ### The cycle window of 04, section 4.10, and the probe of 08, section 8.8 -/

theorem test_window_current : placeHeader 65534 196606 = .current 196606 := by decide +kernel
theorem test_window_next : placeHeader 65535 196606 = .next 196607 ∧ placeHeader 0 196607 = .next 196608 := by decide +kernel
theorem test_window_early : placeHeader 0 196606 = .tooEarly ∧ placeHeader 32765 196606 = .tooEarly := by decide +kernel
theorem test_window_late : placeHeader 32766 196606 = .late ∧ placeHeader 65533 196606 = .late := by decide +kernel
theorem test_probe_mean :
    assess ([18, 19, 18, 18, 19, 18, 18, 19, 18, 18, 19, 18, 18, 19, 18, 19].map Sample.delay) =
      { valid := true, mean := some 1838, spread := some 1 } := by decide +kernel
theorem test_commit_wraps : nextCycleStart 4294967293 = 0 ∧ nextCycleStart 4294967292 = 4294967292 := by decide +kernel

/-! ### Example states: site 291 LOCKED in epoch 4000, the first of cycle 1000, with the epoch starts at ticks 100,000,000 and
110,000,000; carrier 1 is enabled, its group 0 too -/

def grid0 : Grid := { pred := tickFx 100000000, sum8 := 80000000 }
def grid1 : Grid := { pred := tickFx 110000000, sum8 := 80000000 }

/-- The part in SERVING at tick `t`. -/
def live (t : Tick) : State :=
  let s := State.reset
  let r : CarrierRecord := { CarrierRecord.reset with
    gain := 8, rows := CarrierRecord.reset.rows.set 0 { enabled := true, offset := 0 } }
  let p : CarrierParams := { CarrierParams.default with enabled := true, reports := true }
  let tracker : Tracker := { Tracker.reset with
    tick := t, ref := .locked, epoch := some 4000, history := List.replicate 8 10000000
    anchor := some { start := tickFx 100000000, kind := .pulse }, current := some grid0, next := some grid1, window := some 20 }
  let k : CarrierState := { CarrierState.reset false false with maps := { ClaimMaps.reset with label := some 1000 } }
  { s with
    tracker := tracker, carriers := Quad.all k, firstEdge := false
    align := { s.align with active := { s.align.active with records := s.align.active.records.set .c1 r } }
    mgmt := { s.mgmt with service := .serving, params := { s.mgmt.params with carriers := s.mgmt.params.carriers.set .c1 p } } }

/-- A state of the Tracker changed. -/
def tuned (f : Tracker → Tracker) (s : State) : State := s.setTracker (f s.tracker)

/-- Slot `p` of epoch 4000. -/
def slot (p : Fin 8) : SlotRef := slotAt 4000 p grid0

/-- The decision instant of slot 1 for a lead of 20 ms. -/
def due1 : Tick := 101025000

/-- A one-slot class A batch of carrier 1, group 0, start slot 1, with last index 1. -/
def bat (id : BatchId) (st : BatchState) (prio : Fin 4) (next : Nat) (blocks : List (Option Nat)) : Batch :=
  { id := id, carrier := .c1, cycle := 1000, start := 1, slots := 1, group := 0, priority := prio, rate := .a
    modulation := .level4, blocks := blocks, last := some { index := 1, count := 40 }, nextBlock := next, malformed := false
    starved := false, cancelPending := false, completion := some 99000000, state := st }

/-- The table holds these batches and the store their blocks. -/
def stock (bs : List Batch) (s : State) : State :=
  let cells := bs.flatMap fun b => b.blocks.zipIdx.filterMap fun x =>
    x.1.map fun n => (n, { tag := .held b.id x.2, codes := 0x1B : StoreBlock })
  (s.setBatches bs).setStore { s.store with cells := cells, freeCount := 2048 - cells.length }

/-- Batch 9 claims slot 1 of the current cycle. -/
def claims (id : BatchId) (s : State) : State :=
  setMaps .c1 { (s.car .c1).maps with current := (s.car .c1).maps.current.set 1 (some id) } s

/-- A COMPLETE batch 9 claims slot 1. -/
def ready (t : Tick) : State := claims 9 (stock [bat 9 .complete 1 0 [some 0, some 1, none]] (live t))

/-- Batch 9 is ON_AIR, the COMPLETE batch 10 claims slot 1, batch 11 is SUSPENDED. -/
def busy (t : Tick) : State :=
  modSched .c1 (fun x => { x with onAir := some 9, stack := [11] })
    (claims 10 (stock [bat 9 .onAir 1 1 [some 0, some 1, none], bat 10 .complete 2 0 [some 2, some 3, none],
      bat 11 .suspended 0 0 [some 4, some 5, none]] (live t)))

/-- The run of slot 0 for batch 9, all of it in the store. -/
def run9 (pos : Nat) : Run :=
  { slot := slot 0, launch := slotStart (slot 0), tfx := 655360000, symbols := 120, pos := pos
    words := { gain := 8, centre := 0 }, content := .batch 9 0 2 .level4 { index := 1, count := 40 }, ended := false }

/-- Carrier 1 in `busy`, keyed with this Launch Timer. -/
def airing (t : Tick) (x : LaunchTimer) : State := (busy t).modCar .c1 fun k => { k with key := .keyed, timer := x }

/-- `airing` at tick 101,000,000, due to emit position `pos` of the run. -/
def emitting (r : Run) : State :=
  airing 101000000 { active := some r, armed := none, finishing := none, acc := tickFx 101000000, step := 655360000 }

/-- The state a command answers. -/
def after (o : Host.Outcome State Fault Refusal) : State :=
  match o with
  | .next s => s
  | .fault f => nomatch f
  | .refused _ => State.reset

/-! ### One-step tests: what a command leaves, by the rule or table named -/

/-- R12, R14: at PT + W + 1 the epoch starts in holdover, h 1, number 4001. -/
theorem test_holdover : (after (exec .holdoverEpochStart (live 110000021))).tracker.h = 1 ∧
    (after (exec .holdoverEpochStart (live 110000021))).tracker.epoch = some 4001 := by decide +kernel
/-- R10, R11: a pulse at PT + W is accepted with its interval of 10,000,020 at the head of the history; a tick later it is a
stray. -/
theorem test_pulse_window : (after (exec .epochPulse (live 110000020))).tracker.history.head? = some 10000020 ∧
    (after (exec .epochPulse (live 110000021))).mgmt.counters.strayPulses = 1 := by decide +kernel
/-- R2: CLOCK_LOST is bit 0 of the alarm set; the epoch number stands. -/
theorem test_clock_lost : (after (exec .clockLost (busy 105000000))).mgmt.alarms = 1 ∧
    (after (exec .clockLost (busy 105000000))).tracker.epoch = some 4000 := by decide +kernel
/-- R3. -/
theorem test_clock_return : (after (exec .clockReturn (after (exec .clockLost (live 105000000))))).tracker.ref = .acquiring := by
  decide +kernel
/-- R18: a mark in UNSET sets MARK_SET 1000. -/
theorem test_mark_set : (after (exec (.timeMark (rq 0x01 [0, 0, 3, 0xE8])) State.reset)).tracker.pending =
    some { kind := .markSet, number := 1000 } := by decide +kernel
/-- 01, section 1.6.2: the number is 1000 and a mark carries 1005: run 1, offset +4, EPOCH_MISMATCH (bit 3). -/
theorem test_mark_mismatch :
    let s := after (exec (.timeMark (rq 0x01 [0, 0, 3, 0xED])) (tuned (fun t => { t with epoch := some 1000 }) (live 102000000)))
    s.tracker.mismatchRun = 1 ∧ s.tracker.mismatchOffset = 4 ∧ s.mgmt.alarms = 8 ∧ s.tracker.pending = none := by decide +kernel
/-- 01, section 1.6.2: the third mark, 1007 in epoch 1002, sets ADOPT 1007. -/
theorem test_mark_adopts :
    (after (exec (.timeMark (rq 0x01 [0, 0, 3, 0xEF])) (tuned (fun t =>
      { t with epoch := some 1002, mismatchRun := 2, mismatchOffset := 4 }) (live 102000000)))).tracker.pending =
      some { kind := .adopt, number := 1007 } := by decide +kernel
/-- R20. -/
theorem test_epoch_set : (after (exec (.epochSet (rq 0x2C [0, 0, 0, 9])) (live 102000000))).tracker.pending =
    some { kind := .forced, number := 9 } := by decide +kernel
/-- R99, R112, R91: the START of batch 9 in slot 1 leaves the key PENDING for its launch tick less 20 ms, and margin 2,025,000. -/
theorem test_decision_start : ((after (exec (.slotDecision .c1) (ready due1))).car .c1).key = .pending 101050000 ∧
    ((after (exec (.slotDecision .c1) (ready due1))).car .c1).sched.lastMargin = some 2025000 := by decide +kernel
/-- R94: batch 10, priority 2, pushes batch 9, priority 1. -/
theorem test_decision_preempts : ((after (exec (.slotDecision .c1) (busy due1))).car .c1).sched.stack = [9, 11] := by
  decide +kernel
/-- R102: a pulse 10 ticks early starts epoch 4004 and records slot 31; the end of SUSPENDED batch 11 in what is left of that
slot's span, by a CANCEL, then goes to slot 0 of the next cycle. -/
theorem test_early_start_redirect :
    let s := modSched .c1 (fun x => { x with
      outcomes := { x.outcomes with label := some 1000 }
      openSlots := [{ slot := slotAt 4003 7 grid0, program := .quiet, held := none },
        { slot := slotAt 4004 0 grid1, program := .quiet, held := none }] })
      (setMaps .c1 { ClaimMaps.reset with label := some 1001 }
        (tuned (fun t => { t with epoch := some 4003 }) (busy 109999990)))
    let t := after (exec .epochPulse s)
    (t.car .c1).sched.closed = some { slot := slotAt 4003 7 grid0, spanEnd := 110000000 } ∧
    ((after (exec (.cancel (rq 0x04 [0, 11])) t)).car .c1).sched.openSlots.map OpenSlot.held =
      [some { code := .cancelled, id := some 11 }] := by decide +kernel
/-- R101, R105: a pulse 10 ticks early renumbers epoch 4001 to 4000; the flush of SUSPENDED batch 11 falls in the span of slot 7
of epoch 4000, which is open and goes into the report with NO_TIMING; slot 31 of the cycle before, long ended, takes no part. -/
theorem test_early_renumbering :
    let s := modSched .c1 (fun x => { x with
      outcomes := { x.outcomes with label := some 1000 }
      openSlots := [{ slot := slotAt 4000 7 grid0, program := .quiet, held := none }]
      closed := some { slot := slotAt 3999 7 grid0, spanEnd := 100000000 } })
      (tuned (fun t => { t with pending := some { kind := .forced, number := 4000 } }) (busy 109999990))
    let t := after (exec .epochPulse s)
    t.tracker.epoch = some 4000 ∧
      t.link.own.map (fun f => (f.body.drop (6 + 4 * 7)).take 4) = [[BitVec.ofNat 8 (codeNumber .noTiming), 1, 0, 11]] := by
  decide +kernel
/-- R24, R25: slot 1 ends at the start of slot 2. -/
theorem test_slot_end_tick : slotEndTick (live 0).tracker (slot 1) = some 102500000 := by decide +kernel
/-- R35: the codes of 1Bh are 0, 1, 2, 3 in the last four places: levels −3, −1, +1, +3. -/
theorem test_levels : [36, 37, 38, 39].map (fun j => levelOf .level4 (codeAt 0x1B j)) = [-3, -1, 1, 3] := by decide +kernel
/-- R82: after the 40th place of a block its tag is SPENT. -/
theorem test_spent : (readBlock 0 (after (exec (.symbolEmit .c1) (airing 100390000
    { active := some (run9 39), armed := none, finishing := none, acc := tickFx 100390000, step := 655360000 })))).tag = .spent := by
  decide +kernel
/-- R114, R124: at a lead of 0 the key-up and symbol 0 fall at one tick, and SYMBOL_EMIT comes first: the key is KEYED, the word is
symbol 0's, −3 of code 0, RF absent latches NO_CARRIER, and a KEY_UP afterwards changes nothing. -/
theorem test_key_first :
    let s := (emitting (run9 0)).modCar .c1 fun k => { k with key := .pending 101000000 }
    let t := after (exec (.symbolEmit .c1) s)
    (t.car .c1).key = .keyed ∧ (t.car .c1).word = -3 ∧ t.mgmt.alarms = (Alarm.noCarrier .c1).mask ∧
      after (exec (.keyUp .c1) t) = t := by decide +kernel
/-- R124: the check goes by RF as sampled at its tick: present at that tick, the alarm is taken back; a tick later it stays. -/
theorem test_check_sampled :
    let s := after (exec (.symbolEmit .c1) ((emitting (run9 0)).modCar .c1 fun k => { k with
      monitor := { k.monitor with opening := some (slot 0) } }))
    latched (.noCarrier .c1) s = true ∧
    latched (.noCarrier .c1) (after (exec (.rfSenseChange .c1 true) s)) = false ∧
    latched (.noCarrier .c1) (after (exec (.rfSenseChange .c1 true) (tuned (fun t => { t with tick := 101000001 }) s))) = true := by
  decide +kernel
/-- R143: with a gain of 0 both words are the centre word, and sixteen equal samples are not valid. -/
theorem test_equal_words :
    let p : Probe := { Probe.reset with samples := List.replicate 16 (.delay 18), words := { gain := 0, centre := 200 } }
    assessProbe p = { valid := false, mean := some 1800, spread := some 0 } ∧
      (assessProbe { p with words := { gain := 8, centre := 200 } }).valid = true := by decide +kernel
/-- R114: with a tail of 50 ms the payload end at 101,200,000 starts a tail to 101,700,000. -/
theorem test_tail : ((after (exec (.payloadEnd .c1) (airing 101200000
    { active := none, armed := none, finishing := some (run9 120), acc := 0, step := 0 }))).car .c1).key = .tail 101700000 := by
  decide +kernel
/-- R70, R81: the frame's block is the lowest FREE one, number 2. -/
theorem test_block_taken : (readBlock 2 (after (exec (.batchBlock (rq 0x03 ([0, 9, 2, 0, 0] ++ List.replicate 10 0xFF)))
    (stock [{ bat 9 .pending 1 0 [some 0, some 1, none] with last := none }] (live 0))))).tag = .held 9 2 := by decide +kernel
/-- R75: cancelling batch 10 frees its two blocks. -/
theorem test_cancel : (after (exec (.cancel (rq 0x04 [0, 10])) (busy 0))).store.freeCount = 2044 := by decide +kernel
/-- R69: an accepted header adds a record. -/
theorem test_header : (after (exec (.batchHeader (rq 0x02 [0, 12, 1, 3, 0xE8, 5, 1, 0, 1, 1, 0])) (live 101000000))).batches.map
    Batch.id = [12] := by decide +kernel
/-- R131: the three bits 101, bit 7 of the first octet first. -/
theorem test_marker_load : ((after (exec (.markerLoad (rq 0x31 [1, 3, 0xA0])) (live 0))).car .c1).marker = [true, false, true] := by
  decide +kernel
/-- R141: a PATH start enters LOAD_SETTLE for 200,000 ticks with LOAD asserted. -/
theorem test_probe_start : (after (exec (.probeStart (rq 0x34 [1, 0, 1])) (live 0))).probe.phaseEnd = some 200000 ∧
    ((after (exec (.probeStart (rq 0x34 [1, 0, 1])) (live 0))).car .c1).load = true := by decide +kernel
/-- 10, section 10.2 with R165: the body of a reply is the flags, the kind, the code and the content. -/
theorem test_reply_lengths : (after (exec (.status (rq 0x23 [])) State.reset)).link.own.map (fun f => f.body.length) = [180] ∧
    (after (exec (.counters (rq 0x24 [])) State.reset)).link.own.map (fun f => f.body.length) = [167] ∧
    (after (exec (.schedule (rq 0x2D [1])) (busy 0))).link.own.map (fun f => f.body.length) = [173] := by decide +kernel
/-- R169: the identity after ENABLE_SERVICE: part code 4C34h, revision 1, address 123h, tags 0. -/
theorem test_identity :
    (after (exec (.enableService (rq 0x21 [])) (live 0))).link.own.map (fun f => f.body.drop 3) =
      [[0x4C, 0x34, 0x01, 0x01, 0x23, 0, 0, 0, 0]] := by decide +kernel
/-- R173: clearing CLOCK_LOST of the set {CLOCK_LOST, HOLDOVER} leaves HOLDOVER. -/
theorem test_clear_alarms : (after (exec (.clearAlarms (rq 0x25 [0, 0, 0, 1]))
    ((live 0).setMgmt { (live 0).mgmt with alarms := 3 }))).mgmt.alarms = 2 := by decide +kernel
/-- R166: a W of 2000 is clamped to 1000, and the reply is CLAMPED. -/
theorem test_load_site :
    (ownerLoadSite ([0x07, 0xD0] ++ List.replicate 79 0) State.reset).code = .clamped ∧
    (ownerLoadSite ([0x07, 0xD0] ++ List.replicate 79 0) State.reset).state.mgmt.params.w = 1000 := by decide +kernel
/-- R153. -/
theorem test_sync : (after (exec (.syncWordMatch .up 0xA5C3) State.reset)).link.rxUp = .inFrame [] := by decide +kernel
/-- R165: kind 26h is answered UNKNOWN_REQUEST. -/
theorem test_unknown : (after (exec (.unknownRequest 0x26 (rq 0x26 [])) State.reset)).link.own.map (fun f => f.body) =
    [[0, 0x26, 0x0D]] := by decide +kernel

/-! ### What the witnesses share -/

theorem takes_rq (k : Byte) (body : List Byte) {s : State} (h : s.link.siteAddress = 291) : Takes k (rq k body) s :=
  ⟨decide_eq_true rfl, by show (291 : BitVec 12) ≠ 0; decide, .inr h.symm⟩

/-- `ClaimsPlaced` as a check. -/
def claimsOk (c : Carrier) (s : State) : Bool :=
  let m := (s.car c).maps
  let one (n : CycleNo) (i : Fin 32) (e : Option BatchId) : Bool :=
    match e with
    | none => true
    | some id =>
      match findBatch id s with
      | none => false
      | some b => b.carrier = c && b.start = i && b.cycle = n && (b.state = .pending || b.state = .complete) &&
          (s.car c).sched.incoming ≠ some id
  match m.label with
  | none => (List.finRange 32).all fun i => (m.current.get i).isNone && (m.next.get i).isNone
  | some n => (List.finRange 32).all fun i => one n i (m.current.get i) && one (n + 1) i (m.next.get i)

theorem claims_of_ok {c : Carrier} {s : State} (h : claimsOk c s = true) : ClaimsPlaced c s := by
  unfold claimsOk at h
  refine ⟨fun hl => ?_, fun n hl i id => ?_⟩
  · simp only [hl, List.all_eq_true, Bool.and_eq_true, Option.isNone_iff_eq_none] at h
    exact ⟨fun i => (h i (List.mem_finRange i)).1, fun i => (h i (List.mem_finRange i)).2⟩
  · simp only [hl, List.all_eq_true, Bool.and_eq_true] at h
    obtain ⟨h1, h2⟩ := h i (List.mem_finRange i)
    refine ⟨fun hc => ?_, fun hc => ?_⟩
    · rw [hc] at h1
      cases hf : findBatch id s with
      | none => simp [hf] at h1
      | some b => simp [hf] at h1; exact ⟨b, rfl, h1.1.1.1.1, h1.1.1.1.2, h1.1.1.2, h1.1.2, h1.2⟩
    · rw [hc] at h2
      cases hf : findBatch id s with
      | none => simp [hf] at h2
      | some b => simp [hf] at h2; exact ⟨b, rfl, h2.1.1.1.1, h2.1.1.1.2, h2.1.1.2, h2.1.2, h2.2⟩

/-- `BatchesPlaced` as a check. -/
def batchesOk (c : Carrier) (s : State) : Bool :=
  let x := (s.car c).sched
  let has (id : BatchId) (p : Batch → Bool) : Bool :=
    match findBatch id s with
    | none => false
    | some b => b.carrier = c && p b
  decide (x.stack.length ≤ 4) && decide x.stack.Nodup &&
    (s.batches.all fun b => b.carrier ≠ c ||
      (decide (b.state = .onAir ↔ x.onAir = some b.id) && decide (b.state = .suspended ↔ b.id ∈ x.stack))) &&
    x.onAir.all (fun id => has id fun _ => true) && x.stack.all (fun id => has id fun _ => true) &&
    x.incoming.all (fun id => has id fun b => b.state = .complete || b.state = .suspended)

theorem batches_of_ok {c : Carrier} {s : State} (h : batchesOk c s = true) : BatchesPlaced c s := by
  unfold batchesOk at h
  simp only [Bool.and_eq_true, decide_eq_true_eq] at h
  obtain ⟨⟨⟨⟨⟨h1, h2⟩, h3⟩, h4⟩, h5⟩, h6⟩ := h
  refine ⟨h1, h2, fun b hb hc => ?_, fun id hi => ?_, fun id hi => ?_, fun id hi => ?_⟩
  · have := List.all_eq_true.1 h3 b hb
    simpa [hc] using this
  · rw [hi] at h4
    cases hf : findBatch id s with
    | none => simp [hf] at h4
    | some b => simp [hf] at h4; exact ⟨b, rfl, h4⟩
  · have := List.all_eq_true.1 h5 id hi
    cases hf : findBatch id s with
    | none => simp [hf] at this
    | some b => simp [hf] at this; exact ⟨b, rfl, this⟩
  · rw [hi] at h6
    cases hf : findBatch id s with
    | none => simp [hf] at h6
    | some b => simp [hf] at h6; exact ⟨b, rfl, h6.1, h6.2⟩

theorem scheduled_of_ok {s : State} (h1 : TableOrdered s)
    (h2 : ([Carrier.c1, .c2, .c3, .c4].all fun c => claimsOk c s && batchesOk c s) = true) : Scheduled s := by
  refine ⟨h1, fun c => ?_⟩
  have : claimsOk c s = true ∧ batchesOk c s = true := by
    simp only [List.all_cons, List.all_nil, Bool.and_eq_true, Bool.and_true] at h2
    cases c <;> tauto
  exact ⟨claims_of_ok this.1, batches_of_ok this.2⟩

/-- `BlocksAccounted` as a check. -/
theorem accounted_of_ok {s : State} (h1 : TableOrdered s) (h2 : s.store.wf = true ∧ (heldBlocks s).Nodup ∧
    (∀ n ∈ heldBlocks s, n < 2048) ∧ s.store.freeCount + (heldBlocks s).length = 2048 ∧
    ((List.range 2048).all fun n => decide ((readBlock n s).tag = .free) == !(heldBlocks s).contains n) = true) :
    BlocksAccounted s := by
  obtain ⟨a, b, c, d, e⟩ := h2
  refine ⟨a, h1, b, fun n hn => ?_, c, d⟩
  have := List.all_eq_true.1 e n (List.mem_range.2 hn)
  by_cases hx : n ∈ heldBlocks s <;> simp [hx] at this ⊢ <;> exact this

theorem busy_ordered (t : Tick) : TableOrdered (busy t) := by
  have : TableOrdered (busy 0) := by unfold TableOrdered; decide +kernel
  exact this
theorem busy_scheduled (t : Tick) : Scheduled (busy t) := scheduled_of_ok (busy_ordered t) rfl
theorem busy_accounted (t : Tick) : BlocksAccounted (busy t) :=
  accounted_of_ok (busy_ordered t) (by
    have : (busy 0).store.wf = true ∧ (heldBlocks (busy 0)).Nodup ∧ (∀ n ∈ heldBlocks (busy 0), n < 2048) ∧
        (busy 0).store.freeCount + (heldBlocks (busy 0)).length = 2048 ∧
        ((List.range 2048).all fun n => decide ((readBlock n (busy 0)).tag = .free) == !(heldBlocks (busy 0)).contains n) = true := by
      decide +kernel
    exact this)

/-! ### Witnesses: the invariants -/

/-- `busy` with a command in its queue. -/
def queued : State := (busy 105000000).setPending [.clockLost]

/-- A probe of carrier 1 in phase `ph` that ends at `e`. -/
def probing (ph : ProbePhase) (e t : Tick) : State := (live t).setProbe { Probe.reset with phase := ph, phaseEnd := some e }

theorem met_StepKeepsWordsAndLists : WordsInRange queued ∧ ListsBounded queued ∧ ∃ t, step queued = .next t :=
  ⟨fun c => by cases c <;> decide +kernel,
    ⟨by decide +kernel, by decide +kernel, by decide +kernel, fun c => by cases c <;> decide +kernel, by decide +kernel,
      by decide +kernel, by decide +kernel⟩, _, rfl⟩
theorem met_StepKeepsTablesInRange :
    TablesInRange queued ∧ ParamsInRange queued ∧ DelaysInRange queued ∧ ∃ t, step queued = .next t := by
  refine ⟨fun c => ?_, ⟨by decide +kernel, by decide +kernel, by decide +kernel, by decide +kernel, by decide +kernel,
    fun c => by cases c <;> decide +kernel⟩, ⟨fun c => ⟨by cases c <;> decide +kernel, fun v h => by cases c <;> cases h⟩,
    fun n h => ?_, fun a m h => by cases h⟩, _, rfl⟩
  · cases c <;> (unfold RecordInRange; decide +kernel)
  · exact absurd (List.eq_of_mem_replicate h) (by simp)
theorem met_StepKeepsProbeConsistent :
    let s := ((probing .keyUp 105000000 105000000).modCar .c1 fun k => { k with key := .probe }).setPending [.keyUpEnd]
    ProbeFlags s ∧ ProbeHoldsKey s ∧ ∃ t, step s = .next t := by
  refine ⟨by unfold ProbeFlags; decide +kernel, ⟨fun c => ?_, by decide +kernel⟩, _, rfl⟩
  cases c <;> decide +kernel
theorem met_StepKeepsBlocksAccounted : BlocksAccounted queued ∧ ∃ t, step queued = .next t :=
  ⟨busy_accounted 105000000, _, rfl⟩
theorem met_StepKeepsScheduled : Scheduled queued ∧ ∃ t, step queued = .next t := ⟨busy_scheduled 105000000, _, rfl⟩

/-! ### Witnesses: the reference clock and epoch starts -/

/-- `busy`, its clock lost. -/
def lost : State := tuned Tracker.lose (live 105000000)

theorem probe_free (t : Tick) : ProbeHoldsKey (busy t) :=
  ⟨fun c h => (by cases c <;> cases h), fun h => (by cases h)⟩

theorem met_ClockEdges :
    ((live 0).tracker.ref ≠ .noClock ∧ (live 0).firstEdge = false) ∧
      (State.reset.tracker.ref ≠ .noClock ∧ State.reset.firstEdge = true) ∧ lost.tracker.ref = .noClock := by decide +kernel
theorem met_ClockLossFlushes :
    (busy 0).tracker.ref ≠ .noClock ∧ Scheduled (busy 0) ∧ BlocksAccounted (busy 0) ∧ ProbeHoldsKey (busy 0) :=
  ⟨by decide +kernel, busy_scheduled 0, busy_accounted 0, probe_free 0⟩

/-- Batch 9's run of slot 0 is active and slot 1 is open without a run: it spans tick 101,300,000, and batch 11 is SUSPENDED. -/
def spanning (t : Tick) : State :=
  modSched .c1 (fun x => { x with
    openSlots := [{ slot := slot 0, program := .start 9, held := none }, { slot := slot 1, program := .quiet, held := none }]
    outcomes := { x.outcomes with label := some 1000 } })
    (airing t { active := some (run9 39), armed := none, finishing := none, acc := 0, step := 0 })

/-- What SlotsRecorded assumes of carrier 1 in `s`, the tracker of the event being `w`: a slot of a run, if there is one, and
the slot `sl`, which has none, of the array's cycle, with batch 11 alone on the stack. -/
def recorded (w : Tracker) (s : State) (sl : SlotRef) : Prop :=
  let x := (s.car .c1).sched
  let runs := (s.car .c1).timer.runs
  (∀ r ∈ runs, ∃ y ∈ x.openSlots, y.slot = r.slot) ∧ (∀ r ∈ runs, r.slot ≠ sl) ∧ (∃ o ∈ x.openSlots, o.slot = sl) ∧
    (∀ o ∈ x.openSlots, x.outcomes.label = some o.slot.cycle ∧ x.outcomes.entries.get o.slot.index = none ∧
      ∀ y ∈ x.openSlots, y ≠ o → y.slot.index ≠ o.slot.index) ∧
    x.incoming = none ∧ x.stack = [11] ∧ x.closed = none ∧ inSpan w sl = true

theorem met_ClockLossFlushes_slots : (spanning 101300000).tracker.ref ≠ .noClock ∧ Scheduled (spanning 101300000) ∧
    BlocksAccounted (spanning 101300000) ∧ ProbeHoldsKey (spanning 101300000) ∧
    recorded (spanning 101300000).tracker (spanning 101300000) (slot 1) ∧
    run9 39 ∈ ((spanning 101300000).car .c1).timer.runs ∧ inSpan (spanning 102500000).tracker (slot 1) = false :=
  ⟨by decide +kernel, scheduled_of_ok (by unfold TableOrdered; decide +kernel) (by decide +kernel), busy_accounted 0,
    ⟨fun c h => (by cases c <;> cases h), fun h => (by cases h)⟩, by unfold recorded; decide +kernel⟩
/-- A probe of each phase, to be aborted; one in KEY_UP holds its key. -/
theorem met_ClockLossFlushes_probe (ph : ProbePhase) : (probing ph 7 0).tracker.ref ≠ .noClock ∧ Scheduled (probing ph 7 0) ∧
    BlocksAccounted (probing ph 7 0) ∧ ProbeHoldsKey (probing ph 7 0) ∧ (probing ph 7 0).probe.phase = ph ∧
    (probing ph 7 0).probe.aborting = false ∧ (probing ph 7 0).probe.noResult = false := by
  have h1 : TableOrdered (live 0) := by unfold TableOrdered; decide +kernel
  have h2 : ([Carrier.c1, .c2, .c3, .c4].all fun c => claimsOk c (live 0) && batchesOk c (live 0)) = true := by decide +kernel
  have h3 : (live 0).store.wf = true ∧ (heldBlocks (live 0)).Nodup ∧ (∀ n ∈ heldBlocks (live 0), n < 2048) ∧
      (live 0).store.freeCount + (heldBlocks (live 0)).length = 2048 ∧
      ((List.range 2048).all fun n => decide ((readBlock n (live 0)).tag = .free) == !(heldBlocks (live 0)).contains n) = true := by
    decide +kernel
  exact ⟨by show (live 0).tracker.ref ≠ .noClock; decide +kernel, scheduled_of_ok (s := probing ph 7 0) h1 h2,
    accounted_of_ok (s := probing ph 7 0) h1 h3, ⟨fun c h => (by cases c <;> cases h), fun h => (by cases h)⟩, rfl, rfl, rfl⟩

/-- ACQUIRING with seven good intervals, `d` ticks after the last pulse. -/
def acquiring (d : Nat) : State :=
  tuned (fun t => { t with tick := BitVec.ofNat 56 (1000 + d), lastPulse := some 1000, history := List.replicate 7 10000000 })
    State.reset

theorem met_PulseAcquires_first : State.reset.tracker.ref = .acquiring ∧ State.reset.tracker.lastPulse = none := by decide
/-- The ends of the good range, and the ticks beside them. -/
theorem met_PulseAcquires_interval :
    (acquiring 9999000).tracker.ref = .acquiring ∧ ((acquiring 9999000).tracker.acquired.length = 8) ∧
      (acquiring 10001000).tracker.acquired.length = 8 ∧ (acquiring 9998999).tracker.acquired = [] ∧
      (acquiring 10001001).tracker.acquired = [] := by decide +kernel

/-- The hypotheses of the first clause of PulseInAndOutOfWindow at tick `t`. -/
def inOpenWindow (s : State) (w : Nat) (g : Grid) : Prop :=
  (s.tracker.ref = .locked ∨ s.tracker.ref = .holdover) ∧ s.tracker.window = some w ∧ s.tracker.next = some g ∧
    (s.tracker.tick - (fxTick g.pred - BitVec.ofNat 56 w)).toNat ≤ 2 * w ∧ s.tracker.history.length = 8

theorem met_PulseInAndOutOfWindow_in :
    inOpenWindow (live 109999980) 20 grid1 ∧ inOpenWindow (live 110000020) 20 grid1 := by unfold inOpenWindow; decide +kernel

/-- The hypotheses of the stray clause, with the window and the grid the state has. -/
def outOfWindow (s : State) (w : Nat) (g : Grid) : Prop :=
  (s.tracker.ref = .locked ∨ s.tracker.ref = .holdover) ∧ s.tracker.window = some w ∧ s.tracker.next = some g ∧
    2 * w < (s.tracker.tick - (fxTick g.pred - BitVec.ofNat 56 w)).toNat

theorem met_PulseInAndOutOfWindow_out :
    outOfWindow (live 109999979) 20 grid1 ∧ outOfWindow (live 110000021) 20 grid1 := by unfold outOfWindow; decide +kernel
theorem met_PulseInAndOutOfWindow_lost : lost.tracker.ref = .noClock := by decide +kernel

/-- `busy` in HOLDOVER after `n` missed pulses, at PT + W + 1. -/
def missed (n : Nat) : State := tuned (fun t => { t with ref := .holdover, h := n }) (busy 110000021)

/-- The hypotheses HoldoverStarts and HoldoverExpires share. -/
def windowGone (s : State) (w : Nat) (g : Grid) : Prop :=
  (s.tracker.ref = .locked ∨ s.tracker.ref = .holdover) ∧ s.tracker.window = some w ∧ s.tracker.next = some g ∧
    s.tracker.tick = fxTick g.pred + BitVec.ofNat 56 (w + 1) ∧ s.tracker.history.length = 8

theorem met_HoldoverStarts :
    (windowGone (live 110000021) 20 grid1 ∧
      (if (live 110000021).tracker.ref = .locked then 1 else (live 110000021).tracker.h + 1) ≤ (live 110000021).mgmt.params.h) ∧
    windowGone (missed 299) 20 grid1 ∧
      (if (missed 299).tracker.ref = .locked then 1 else (missed 299).tracker.h + 1) ≤ (missed 299).mgmt.params.h := by
  unfold windowGone; decide +kernel
theorem met_HoldoverExpires : windowGone (missed 300) 20 grid1 ∧
    (missed 300).mgmt.params.h < (if (missed 300).tracker.ref = .locked then 1 else (missed 300).tracker.h + 1) ∧
    Scheduled (missed 300) ∧ BlocksAccounted (missed 300) ∧ ProbeHoldsKey (missed 300) :=
  ⟨by unfold windowGone; decide +kernel, by decide +kernel, busy_scheduled 0, busy_accounted 0, probe_free 0⟩
/-- `missed 300`, slot 0 of epoch 4001, which spans the tick, open. -/
def missedSlot : State :=
  modSched .c1 (fun x => { x with
    openSlots := [{ slot := slotAt 4001 0 grid1, program := .quiet, held := none }]
    outcomes := { x.outcomes with label := some 1000 } }) (missed 300)

theorem met_HoldoverExpires_slots : windowGone missedSlot 20 grid1 ∧ missedSlot.tracker.renumbers = false ∧
    numberTaken missedSlot = some 4001 ∧ (4001 : EpochNo).toNat % 4 ≠ 0 ∧
    recorded { missedSlot.tracker with current := some grid1, next := none } missedSlot (slotAt 4001 0 grid1) := by
  unfold windowGone recorded; decide +kernel
theorem met_HoldoverExpires_slots_scheduled : Scheduled missedSlot ∧ BlocksAccounted missedSlot ∧ ProbeHoldsKey missedSlot ∧
    missedSlot.mgmt.params.h < (if missedSlot.tracker.ref = .locked then 1 else missedSlot.tracker.h + 1) :=
  ⟨scheduled_of_ok (by unfold TableOrdered; decide +kernel) (by decide +kernel), busy_accounted 0,
    ⟨fun c h => (by cases c <;> cases h), fun h => (by cases h)⟩, by decide +kernel⟩
theorem met_EpochNumberTaken :
    StartsEpoch .epochPulse State.reset ∧ StartsEpoch .epochPulse (live 109999980) ∧
      StartsEpoch .holdoverEpochStart (live 110000021) :=
  ⟨.inl ⟨rfl, .inl rfl⟩, .inl ⟨rfl, .inr ⟨.inl rfl, by decide +kernel⟩⟩, .inr ⟨rfl, by decide +kernel⟩⟩

/-- A FORCED number, not 4001, waits at an epoch start of `busy`. -/
def renumbering : State := tuned (fun t => { t with pending := some { kind := .forced, number := 4002 } }) (busy 110000000)

theorem met_RenumberingFlushes : StartsEpoch .epochPulse renumbering ∧
    renumbering.tracker.pending = some { kind := .forced, number := 4002 } ∧ renumbering.tracker.epoch = some 4000 ∧
    (PendingKind.forced ≠ .markSet ∧ (4002 : EpochNo) ≠ 4000 + 1) ∧ Scheduled renumbering ∧ BlocksAccounted renumbering :=
  ⟨.inl ⟨rfl, .inr ⟨.inl rfl, by decide +kernel⟩⟩, rfl, rfl, by decide, busy_scheduled 0, busy_accounted 0⟩

/-- Four frames stand in the own queue at tick `t`, where epoch 4004 starts. -/
def cycleStart (t : Tick) : State :=
  let s := tuned (fun t => { t with epoch := some 4003 }) (live t)
  modSched .c1 (fun x => { x with outcomes := { x.outcomes with label := some 1000 } })
    (s.setLink { s.link with own := List.replicate 4 ((rq 0x80 []).withKind 0x80) })

/-- A start by a pulse, one on its prediction with h at most H, and one that renumbers to 4002. -/
theorem met_CycleReportsSent :
    (StartsEpoch .epochPulse (cycleStart 110000000) ∧ numberTaken (cycleStart 110000000) = some 4004 ∧
      (4004 : EpochNo).toNat % 4 = 0 ∧ (cycleStart 110000000).link.own.length ≤ 4 ∧
      (cycleStart 110000000).tracker.renumbers = false ∧
      ((cycleStart 110000000).car .c1).sched.outcomes.label = some 1000 ∧ ((cycleStart 110000000).par .c1).reports = true) ∧
    (StartsEpoch .holdoverEpochStart (cycleStart 110000021) ∧ numberTaken (cycleStart 110000021) = some 4004 ∧
      (if (cycleStart 110000021).tracker.ref = .locked then 1 else (cycleStart 110000021).tracker.h + 1) ≤
        (cycleStart 110000021).mgmt.params.h) ∧
    StartsEpoch .epochPulse renumbering ∧ numberTaken renumbering = some 4002 ∧ renumbering.tracker.renumbers = true ∧
      renumbering.link.own.length ≤ 4 := by
  refine ⟨⟨.inl ⟨rfl, .inr ⟨.inl rfl, by decide +kernel⟩⟩, by decide +kernel⟩,
    ⟨.inr ⟨rfl, by decide +kernel⟩, by decide +kernel⟩, .inl ⟨rfl, .inr ⟨.inl rfl, by decide +kernel⟩⟩, by decide +kernel⟩

/-- An early start, as after a RESTART: the array has no label, slot 31 is open, and the own queue holds `n` frames; and the start
of `cycleStart` with a labelled array and a queue that is full. -/
def unlabelled (n : Nat) : State :=
  let s := modSched .c1 (fun x => { x with
    outcomes := OutcomeArray.reset, openSlots := [{ slot := slotAt 4003 7 grid0, program := .quiet, held := none }] })
    (cycleStart 109999980)
  s.setLink { s.link with own := List.replicate n ((rq 0x80 []).withKind 0x80) }

theorem met_CycleReportsSent_unlabelled (n : Nat) (h : n = 0 ∨ n = 8) :
    StartsEpoch .epochPulse (unlabelled n) ∧ numberTaken (unlabelled n) = some 4004 ∧
    (unlabelled n).tracker.renumbers = false ∧ (unlabelled n).link.own.length ≤ 8 ∧
    ((unlabelled n).car .c1).sched.outcomes.label = none ∧ ((unlabelled n).par .c1).reports = true ∧
    ((unlabelled n).car .c1).sched.openSlots.map OpenSlot.slot = [slotAt 4003 7 grid0] := by
  rcases h with h | h <;> subst h <;> exact ⟨.inl ⟨rfl, .inr ⟨.inl rfl, by decide +kernel⟩⟩, by decide +kernel⟩
theorem met_CycleReportsSent_full :
    let s := (cycleStart 110000000).setLink { (cycleStart 110000000).link with own := List.replicate 8 ((rq 0x80 []).withKind 0x80) }
    StartsEpoch .epochPulse s ∧ numberTaken s = some 4004 ∧ s.link.own.length = 8 ∧
    (s.car .c1).sched.outcomes.label = some 1000 ∧ (s.par .c1).reports = true :=
  ⟨.inl ⟨rfl, .inr ⟨.inl rfl, by decide +kernel⟩⟩, by decide +kernel⟩

/-! ### Witnesses: the link, time marks, the Alignment Table -/

/-- A frame from this site, as relayed from DOWN. -/
def upFrame : Frame := (rq 0x80 [0, 0x23, 0]).withKind 0x80

/-- A link state. -/
def linked (f : Link → Link) : State := State.reset.setLink (f State.reset.link)

theorem met_UntakenFramesFiltered :
    goodFrame (({ rq 0x23 [] with check := 0 } : RxFrame).withKind 0x23) = false ∧ ({ rq 0x23 [] with dest := 0 } : RxFrame).dest = 0 ∧
    let f : RxFrame := { dest := 292, src := 5, tag := 7, body := []
                         check := crc (checkedOctets { dest := 292, src := 5, kind := 0x23, tag := 7, body := [], check := 0 }) }
    goodFrame (f.withKind 0x23) = true ∧ f.dest ≠ 0 ∧ f.dest ≠ 4095 ∧ f.dest ≠ State.reset.link.siteAddress := by decide +kernel
theorem met_UntakenFramesFiltered_unknown : kindUnknown 0x26 = true ∧
    goodFrame (({ rq 0x26 [] with check := 0 } : RxFrame).withKind 0x26) = false ∧
    let f : RxFrame := { dest := 292, src := 5, tag := 7, body := []
                         check := crc (checkedOctets { dest := 292, src := 5, kind := 0x26, tag := 7, body := [], check := 0 }) }
    goodFrame (f.withKind 0x26) = true ∧ f.dest ≠ 0 ∧ f.dest ≠ 4095 ∧ f.dest ≠ State.reset.link.siteAddress := by decide +kernel
theorem met_OddBodiesAnswered_traffic :
    Takes 0x01 (rq 0x01 [0, 0, 0]) State.reset ∧ Takes 0x02 (rq 0x02 [0]) State.reset ∧ Takes 0x03 (rq 0x03 []) State.reset ∧
      Takes 0x04 (rq 0x04 [0, 0, 0]) State.reset :=
  ⟨takes_rq _ _ rfl, takes_rq _ _ rfl, takes_rq _ _ rfl, takes_rq _ _ rfl⟩
/-- A body one octet short of each layout. -/
theorem met_OddBodiesAnswered_short (r : Byte × Nat × (RxFrame → Instr)) (h : r ∈ layoutRows) :
    Takes r.1 (rq r.1 (List.replicate (r.2.1 - 1) 0)) State.reset ∧ (List.replicate (r.2.1 - 1) (0 : Byte)).length < r.2.1 := by
  refine ⟨takes_rq _ _ rfl, ?_⟩
  have : ∀ r ∈ layoutRows, 0 < r.2.1 := by decide
  simpa using this r h
theorem met_OddBodiesAnswered_unknown :
    (kindUnknown 0x26 = true ∧ Takes 0x26 (rq 0x26 []) State.reset) ∧ (kindUnknown 0x80 = true ∧ Takes 0x80 (rq 0x80 []) State.reset) ∧
      kindUnknown 0x81 = true ∧ Takes 0x81 (rq 0x81 []) State.reset :=
  ⟨⟨by decide, takes_rq _ _ rfl⟩, ⟨by decide, takes_rq _ _ rfl⟩, by decide, takes_rq _ _ rfl⟩
theorem met_SyncStartsFrame : State.reset.link.rxUp = .hunt ∧ State.reset.link.rxDown = .hunt ∧
    (linked fun l => { l with rxUp := .inFrame [] }).link.rxUp = .inFrame [] ∧
    (linked fun l => { l with rxDown := .inFrame [] }).link.rxDown = .inFrame [] ∧ (0xA5C2 : BitVec 16) ≠ 0xA5C3 := by decide
theorem met_DownFrameRelayed : goodFrame upFrame = true ∧ goodFrame { upFrame with check := 0 } = false ∧
    (linked fun l => { l with relay := List.replicate 7 upFrame }).link.relay.length < 8 ∧
    8 ≤ (linked fun l => { l with relay := List.replicate 8 upFrame }).link.relay.length := by decide +kernel
theorem met_LinkTransmits_repeat : (linked fun l => { l with repeatStore := [upFrame] }).link.repeatStore = [upFrame] ∧
    (linked fun l => { l with repeatStore := [upFrame] }).link.repeating = false ∧
    (linked fun l => { l with repeatStore := [upFrame], repeating := true }).link.repeating = true := by decide +kernel
/-- The clauses of a start: chosen before, one queue alone, the turn; those of an end: both queues, one, none. -/
theorem met_LinkTransmits_up (f : Frame) :
    (let s := linked fun l => { l with own := [f], relay := [f], chosen := some .own }
     s.link.sending = none ∧ s.link.own = [f] ∧ s.link.chosen = some .own) ∧
    (let s := linked fun l => { l with relay := [f] }
     s.link.sending = none ∧ s.link.relay = [f] ∧ s.link.chosen = none ∧ s.link.own = []) ∧
    (let s := linked fun l => { l with own := [f], relay := [f], turn := .relay }
     s.link.sending = none ∧ s.link.relay = [f] ∧ s.link.chosen = none ∧ s.link.turn = .relay) ∧
    (let s := linked fun l => { l with sending := some (.own, f), relay := [f] }
     s.link.sending = some (.own, f) ∧ s.link.chosen = none ∧ s.link.relay ≠ []) ∧
    (let s := linked fun l => { l with sending := some (.relay, f), own := [f] }
     s.link.sending = some (.relay, f) ∧ s.link.chosen = none ∧ s.link.own ≠ []) ∧
    (let s := linked fun l => { l with sending := some (.own, f) }
     s.link.sending = some (.own, f) ∧ s.link.own = [] ∧ s.link.relay = []) :=
  ⟨⟨rfl, rfl, rfl⟩, ⟨rfl, rfl, rfl, rfl⟩, ⟨rfl, rfl, rfl, rfl⟩, ⟨rfl, rfl, List.cons_ne_nil _ _⟩, ⟨rfl, rfl, List.cons_ne_nil _ _⟩, rfl, rfl, rfl⟩

/-- A TIME_MARK that carries 4001. -/
def mark : RxFrame := rq 0x01 [0, 0, 0x0F, 0xA1]

theorem met_TimeMarkJudged_rejected : Takes 0x01 mark lost ∧ mark.body.length = 4 ∧ lost.tracker.ref = .noClock ∧
    ((live 109500001).tracker.ref = .locked ∧ (live 109500001).tracker.next = some grid1 ∧
      (live 109500001).tracker.tick ≠ fxTick grid1.pred - BitVec.ofNat 56 500000 ∧
      tickReached (live 109500001).tracker.tick (fxTick grid1.pred - BitVec.ofNat 56 500000) = true) ∧
    (acquiring 9500001).tracker.lastPulse = some 1000 ∧ (acquiring 9500001).tracker.tick ≠ 1000 + BitVec.ofNat 56 9500000 ∧
      tickReached (acquiring 9500001).tracker.tick (1000 + BitVec.ofNat 56 9500000) = true :=
  ⟨takes_rq _ _ rfl, rfl, by decide +kernel⟩
/-- At the guard instant itself a mark passes: UNSET, a match, a mismatch that starts a run, one that reaches 3. -/
theorem met_TimeMarkJudged_taken : Takes 0x01 mark (live 109500000) ∧ mark.body.length = 4 ∧
    (live 109500000).tracker.rejectsMark = false ∧ (acquiring 9500000).tracker.rejectsMark = false ∧
    State.reset.tracker.rejectsMark = false ∧ State.reset.tracker.epoch = none ∧ (live 109500000).tracker.epoch = some 4000 ∧
    BitVec.ofNat 32 (field mark.body 0 4) = 4000 + 1 ∧ BitVec.ofNat 32 (field mark.body 0 4) ≠ 3000 + 1 ∧
    (let t := (tuned (fun t => { t with epoch := some 3000, mismatchRun := 2, mismatchOffset := 1000 }) (live 109500000)).tracker
     t.rejectsMark = false ∧ t.epoch = some 3000 ∧ t.mismatchRun = 2 ∧
       BitVec.ofNat 32 (field mark.body 0 4) - (3000 + 1) = t.mismatchOffset) :=
  ⟨takes_rq _ _ rfl, rfl, by decide +kernel⟩
/-- One tick before the guard instant and at it, in LOCKED and in ACQUIRING, and with no last pulse. -/
theorem met_TimeMarkJudged_passes (d : Nat) (h : d = 9499999 ∨ d = 9500000) :
    MarkPasses (live (BitVec.ofNat 56 (100000000 + d))).tracker ∧ MarkPasses (acquiring d).tracker ∧
      MarkPasses State.reset.tracker := by
  refine ⟨.inl ⟨grid1, .inl rfl, rfl, ?_⟩, .inr ⟨rfl, fun l hl => ?_⟩, .inr ⟨rfl, fun l hl => by cases hl⟩⟩
  · rcases h with h | h <;> subst h <;> decide +kernel
  · cases hl; rcases h with h | h <;> subst h <;> decide +kernel
theorem met_EpochSetForces : Takes 0x2C (rq 0x2C [0, 0, 0, 9]) (live 0) ∧ 4 ≤ (rq 0x2C [0, 0, 0, 9]).body.length ∧
    (live 0).tracker.ref ≠ .noClock ∧ lost.tracker.ref = .noClock := ⟨takes_rq _ _ rfl, by decide, by decide +kernel⟩

/-- A LOAD_ALIGN of carrier `c`, first group `first`, with `n` rows. -/
def loadAlign (c first : Byte) (n : Nat) : RxFrame :=
  rq 0x28 ([c, 0, 0, 0, 8, 0, 0, 0, 0, first, BitVec.ofNat 8 n] ++ List.replicate (5 * n) 0)

/-- A switch is pending. -/
def switching (t : Tick) : State := (live t).setAlign { (live t).align with pending := some { target := 4004, version := 2 } }

theorem met_LoadAlignJudged_taken (first n : Nat) (h : (first, n) = (0, 16) ∨ (first, n) = (15, 1)) :
    let f := loadAlign 4 (BitVec.ofNat 8 first) n
    Takes 0x28 f (live 0) ∧ 11 ≤ f.body.length ∧ carrierOf (field f.body 0 1) = some .c4 ∧ field f.body 9 1 = first ∧
      field f.body 10 1 = n ∧ 1 ≤ n ∧ first + n ≤ 16 ∧ (f.body.length - 11) / 5 = n ∧ (live 0).align.pending = none := by
  rcases h with h | h <;> cases h <;> exact ⟨takes_rq _ _ rfl, by decide +kernel⟩
theorem met_LoadAlignJudged_refused : Takes 0x28 (loadAlign 5 0 1) (live 0) ∧ Takes 0x28 (loadAlign 1 15 2) (live 0) ∧
    ¬ (field (loadAlign 5 0 1).body 0 1 ≤ 4) ∧ ¬ (field (loadAlign 1 15 2).body 9 1 + field (loadAlign 1 15 2).body 10 1 ≤ 16) ∧
    Takes 0x28 (loadAlign 1 15 1) (switching 0) ∧ (switching 0).align.pending.isSome = true :=
  ⟨takes_rq _ _ rfl, takes_rq _ _ rfl, by decide +kernel, by decide +kernel, takes_rq _ _ rfl, rfl⟩

/-- A COMMIT_ALIGN for epoch `e`, version 2. -/
def commit (e : Byte) : RxFrame := rq 0x29 [0, 0, 0x0F, e, 0, 2]

/-- In time one tick before the roll tick of the very next epoch, late at it, and late for an epoch behind. -/
theorem met_CommitAlignJudged :
    let s (t : Tick) := tuned (fun x => { x with epoch := some 4003 }) (live t)
    let target := nextCycleStart (BitVec.ofNat 32 (field (commit 0xA1).body 0 4))
    Takes 0x29 (commit 0xA1) (live 0) ∧ 6 ≤ (commit 0xA1).body.length ∧ target = 4003 + 1 ∧
    (1 ≤ (target - 4003).toNat ∧ (target - 4003).toNat ≤ 2147483647) ∧
    tickReached (s 108774998).tracker.tick (fxTick grid1.pred - BitVec.ofNat 56 1225001) = false ∧
    tickReached (s 108774999).tracker.tick (fxTick grid1.pred - BitVec.ofNat 56 1225001) = true ∧
    ¬ 1 ≤ (nextCycleStart (BitVec.ofNat 32 (field (commit 0xA0).body 0 4)) - 4000).toNat :=
  ⟨takes_rq _ _ rfl, by decide +kernel⟩

/-- A READ_ALIGN of carrier 1. -/
def readAlign (bank first n : Byte) : RxFrame := rq 0x2A [bank, 1, first, n]

theorem met_ReadAlignAnswered : Takes 0x2A (readAlign 0 0 16) (live 0) ∧ 4 ≤ (readAlign 0 0 16).body.length ∧
    (field (readAlign 0 0 16).body 0 1 ≤ 1 ∧ field (readAlign 0 0 16).body 2 1 + field (readAlign 0 0 16).body 3 1 ≤ 16) ∧
    (field (readAlign 1 15 1).body 0 1 ≤ 1 ∧ field (readAlign 1 15 1).body 2 1 + field (readAlign 1 15 1).body 3 1 ≤ 16) ∧
    carrierOf (field (readAlign 1 15 1).body 1 1) = some .c1 ∧ 1 < field (readAlign 2 0 1).body 0 1 ∧
    field (readAlign 0 0 0).body 3 1 = 0 ∧ 16 < field (readAlign 0 15 2).body 2 1 + field (readAlign 0 15 2).body 3 1 :=
  ⟨takes_rq _ _ rfl, by decide +kernel⟩

/-- The roll tick of epoch 4004, with a switch to `e` pending. -/
def rolling (e : EpochNo) : State :=
  let s := tuned (fun x => { x with epoch := some 4003 }) (live 108774999)
  s.setAlign { s.align with pending := some { target := e, version := 2 } }

theorem met_TableRollTaken : (rolling 4004).tracker.ref = .locked ∧ (rolling 4004).tracker.epoch = some 4003 ∧
    (rolling 4004).tracker.next = some grid1 ∧ ((4003 : EpochNo) + 1).toNat % 4 = 0 ∧
    (rolling 4004).tracker.tick = fxTick grid1.pred - BitVec.ofNat 56 1225001 ∧
    (rolling 4004).align.lastRoll ≠ some (rolling 4004).tracker.tick ∧
    (rolling 4004).align.pending = some { target := 4003 + 1, version := 2 } ∧
    2147483648 ≤ ((4000 : EpochNo) - (4003 + 1)).toNat ∧
    (1 ≤ ((4008 : EpochNo) - (4003 + 1)).toNat ∧ ((4008 : EpochNo) - (4003 + 1)).toNat ≤ 2147483647) := by decide +kernel

/-! ### Witnesses: headers, blocks, cancels -/

/-- A BATCH_HEADER with id 12, one slot, group 0, class A, four levels. -/
def header (c cyc start slots prio : Byte) : RxFrame := rq 0x02 [0, 12, c, 3, cyc, start, slots, 0, prio, 1, 0]

/-- The hypotheses HeaderAccepted and HeaderReplacesClaimant share, in state `s`. -/
def headerPasses (f : RxFrame) (s : State) (h : HeaderFields) : Prop :=
  f.body.length = 11 ∧ carrierOf (headerFrame f.body).carrier = some .c1 ∧ s.mgmt.service = .serving ∧
    timingAvailable s = true ∧ (s.par .c1).enabled = true ∧ headerFields (headerFrame f.body) = some h ∧
    ((s.align.active.records.get .c1).rows.get h.group).enabled = true ∧ currentCycle .c1 s = some 1000 ∧
    (s.car .c1).maps.label = some 1000 ∧ h.start.val + h.slots ≤ 32 ∧ (s.par .c1).markerSlot ≠ some h.start ∧
    findBatch (headerFrame f.body).id s = none ∧ s.batches.length < 64

def fields (start : Fin 32) (slots : Nat) (prio : Fin 4) : HeaderFields :=
  { start := start, slots := slots, group := 0, priority := prio, rate := .a, modulation := .level4 }

/-- For slot 31 of the next cycle, and for slot 1 of the current one, one tick before its decision instant. -/
theorem met_HeaderAccepted : Takes 0x02 (header 1 0xE9 31 1 1) (live 0) ∧
    (headerPasses (header 1 0xE9 31 1 1) (live 0) (fields 31 1 1) ∧
      (headerFrame (header 1 0xE9 31 1 1).body).cycle = ((1000 : CycleNo) + 1).toNat % 65536 ∧
      ((live 0).car .c1).maps.next.get (31 : Fin 32) = none) ∧
    headerPasses (header 1 0xE8 1 8 1) (live 101024999) (fields 1 8 1) ∧
      (headerFrame (header 1 0xE8 1 8 1).body).cycle = (1000 : CycleNo).toNat % 65536 ∧
      headerLate .c1 1000 1 (live 101024999) = false ∧ ((live 101024999).car .c1).maps.current.get (1 : Fin 32) = none := by
  refine ⟨takes_rq _ _ rfl, ?_⟩
  unfold headerPasses; decide +kernel

/-- Check 7 by R66: one tick before the instant of slot 1 and at it, for slot 8 of the next epoch with its grid and without, for a
slot of an epoch after that, one of an epoch before, and one whose epoch has no grid. -/
theorem met_HeaderAccepted_late :
    ¬ Late .c1 1000 1 (live 101024999) ∧ ¬ Late .c1 1000 1 (busy 101024999) ∧ Late .c1 1000 1 (live 101025000) ∧
    ¬ Late .c1 1000 8 (live 109774999) ∧ Late .c1 1000 8 (live 109775000) ∧
    ¬ Late .c1 1000 8 (tuned (fun t => { t with next := none }) (live 109775000)) ∧ ¬ Late .c1 1000 16 (live 109775000) ∧
    Late .c1 1000 7 (tuned (fun t => { t with epoch := some 4001 }) (live 0)) ∧
    Late .c1 1000 1 (tuned (fun t => { t with current := none }) (live 0)) := by
  refine ⟨?_, ?_, ?_, ?_, ?_, ?_, ?_, ?_, ?_⟩
  all_goals first | rw [← headerLate_iff (e := 4000) rfl] | rw [← headerLate_iff (e := 4001) rfl]
  all_goals decide +kernel

/-- Batch 10 of `busy`, priority 2, is outranked by priority 3; under REPLACE it is replaced by priority 0 too. -/
theorem met_HeaderReplacesClaimant :
    let b := bat 10 .complete 2 0 [some 2, some 3, none]
    Takes 0x02 (header 1 0xE8 1 1 3) (busy 101024999) ∧ headerPasses (header 1 0xE8 1 1 3) (busy 101024999) (fields 1 1 3) ∧
      Scheduled (busy 101024999) ∧ BlocksAccounted (busy 101024999) ∧ findBatch b.id (busy 101024999) = some b ∧
      b.priority < (fields 1 1 3).priority ∧ (headerFrame (header 1 0xE8 1 1 3).body).cycle = (1000 : CycleNo).toNat % 65536 ∧
      headerLate .c1 1000 1 (busy 101024999) = false ∧ ((busy 101024999).car .c1).maps.current.get (1 : Fin 32) = some b.id :=
  ⟨takes_rq _ _ rfl, by unfold headerPasses; decide +kernel, busy_scheduled _, busy_accounted _, by decide +kernel⟩

/-- `live` with the site parameters of carrier 1 changed. -/
def withPar (f : CarrierParams → CarrierParams) (s : State) : State :=
  s.setMgmt { s.mgmt with params := { s.mgmt.params with carriers := s.mgmt.params.carriers.set .c1 (f (s.par .c1)) } }

/-- One header for each refusal, and the first check that fails for it. -/
theorem met_HeaderRefusedInOrder :
    let j (f : RxFrame) (s : State) := judgeHeader (headerFrame f.body) .c1 s
    let t : Tick := 101024999
    carrierOf (headerFrame (header 0 0xE8 1 1 1).body).carrier = none ∧ carrierOf (headerFrame (header 5 0xE8 1 1 1).body).carrier = none ∧
    j (header 1 0xE8 1 1 1) ((live t).setMgmt { (live t).mgmt with service := .configured }) = .refused .notServing ∧
    j (header 1 0xE8 1 1 1) (tuned (fun x => { x with ref := .acquiring }) (live t)) = .refused .noTiming ∧
    j (header 1 0xE8 1 1 1) (withPar (fun p => { p with enabled := false }) (live t)) = .refused .carrierOff ∧
    j (header 1 0xE8 32 1 1) (live t) = .refused .badField ∧ j (header 1 0xE8 1 9 1) (live t) = .refused .badField ∧
    j (rq 0x02 [0, 12, 1, 3, 0xE8, 1, 1, 15, 1, 1, 0]) (live t) = .refused .notInGroup ∧
    j (header 1 0xEA 1 1 1) (live t) = .refused .tooEarly ∧ j (header 1 0xE7 1 1 1) (live t) = .refused .late ∧
    j (header 1 0xE8 1 1 1) (live 101025000) = .refused .late ∧ j (header 1 0xE8 31 2 1) (live t) = .refused .span ∧
    j (header 1 0xE8 1 1 1) (withPar (fun p => { p with markerSlot := some 1 }) (live t)) = .refused .slotReserved ∧
    j (header 1 0xE8 1 1 1) (stock [bat 12 .complete 1 0 []] (live t)) = .refused .duplicate ∧
    j (header 1 0xE8 1 1 1) ((live t).setBatches (List.replicate 64 (bat 9 .complete 1 0 []))) = .refused .tableFull ∧
    j (header 1 0xE8 1 1 2) (busy t) = .refused .claimed := by decide +kernel
theorem met_HeaderRefusedInOrder_frame :
    Takes 0x02 (header 1 0xE8 1 1 2) (busy 101024999) ∧ (header 1 0xE8 1 1 2).body.length = 11 := ⟨takes_rq _ _ rfl, rfl⟩

/-- A BATCH_BLOCK for batch 9. -/
def block (id index last count : Byte) : RxFrame := rq 0x03 ([0, id, index, last, count] ++ List.replicate 10 0xFF)

/-- Batch 9 is PENDING: positions 0 and 1 of 0 to 2 are held, the last index unknown. -/
def filling : State := stock [{ bat 9 .pending 1 0 [some 0, some 1, none] with last := none, completion := none }] (live 0)

/-- `filling` with these store blocks tagged, none FREE counted. -/
def tagged (l : List Nat) : State :=
  filling.setStore { cells := l.map fun n => (n, { tag := .spent, codes := 0 }), freeCount := 0, low := true }

theorem read_tagged (l : List Nat) (n : Nat) (h : n ∈ l) :
    cellsRead (l.map fun m => (m, { tag := .spent, codes := 0 })) n = { tag := .spent, codes := 0 } := by
  induction l with
  | nil => cases h
  | cons m rest ih =>
    by_cases hm : m = n
    · simp [cellsRead, hm]
    · rw [List.map_cons, cellsRead, if_neg hm]
      exact ih (by simpa [Ne.symm hm] using h)
theorem wf_tagged (l : List Nat) (h1 : l.Pairwise (· < ·)) (h2 : ∀ n ∈ l, n < 2048) :
    cellsWf (l.map fun m => (m, { tag := .spent, codes := 0 })) = true := by
  induction l with
  | nil => rfl
  | cons m rest ih =>
    have hm : m < Config.storeSize := h2 m (by simp)
    have hr : ∀ x ∈ rest, m < x := (List.pairwise_cons.1 h1).1
    rw [List.map_cons, cellsWf, ih (List.pairwise_cons.1 h1).2 fun n hn => h2 n (by simp [hn])]
    simp [hm, blankBlock]
    exact hr
/-- Every store block is tagged: none is FREE. -/
theorem met_BlockByCase_full (l : List Nat) (h : l = List.range 2048) : StoreCanonical (tagged l) ∧ TableOrdered (tagged l) ∧
    (∀ n < 2048, (readBlock n (tagged l)).tag ≠ .free) ∧
    ∃ b, findBatch (blockFrame (block 9 2 0 0).body).id (tagged l) = some b ∧ b.blocks.getD 2 none = none := by
  refine ⟨wf_tagged l ?_ ?_, ?_, fun n hn => ?_, ?_⟩
  · rw [h]; exact List.pairwise_lt_range
  · rw [h]; exact fun n hn => List.mem_range.1 hn
  · have : TableOrdered filling := by unfold TableOrdered; decide +kernel
    exact this
  · have : readBlock n (tagged l) = { tag := .spent, codes := 0 } := read_tagged l n (by rw [h]; exact List.mem_range.2 hn)
    rw [this]; decide
  · have : ∃ b, findBatch (blockFrame (block 9 2 0 0).body).id filling = some b ∧ b.blocks.getD 2 none = none :=
      ⟨{ bat 9 .pending 1 0 [some 0, some 1, none] with last := none, completion := none }, by decide +kernel⟩
    exact this
theorem met_BlockByCase : Takes 0x03 (block 9 2 0 0) filling ∧ (block 9 2 0 0).body.length = 15 ∧ StoreCanonical filling ∧
    TableOrdered filling ∧ findBatch (blockFrame (block 8 0 0 0).body).id filling = none ∧
    (∃ b, findBatch (blockFrame (block 9 2 0 0).body).id filling = some b ∧ b.slots * b.rate.blocks = 3 ∧ b.last = none ∧
      (b.blocks.getD 1 none).isSome = true ∧ b.blocks.getD 2 none = none) ∧
    ((blockFrame (block 9 3 0 0).body).index = 3 ∧ (blockFrame (block 9 2 1 41).body).valid = 41 ∧
      (blockFrame (block 9 0 1 40).body).last = true ∧ (blockFrame (block 9 1 1 40).body).index = 1) ∧
    (readBlock 2 filling).tag = .free ∧ ∀ j < 2, (readBlock j filling).tag ≠ .free := by
  refine ⟨takes_rq _ _ rfl, rfl, by unfold StoreCanonical; decide +kernel, by unfold TableOrdered; decide +kernel,
    by decide +kernel, ⟨_, rfl, by decide +kernel⟩, by decide +kernel⟩
theorem met_BlockByCase_complete :
    let b := bat 9 .pending 1 0 [some 0, some 1, none]
    (b.state = .pending ∧ b.last = some { index := 1, count := 40 } ∧ ∀ i < 2, (b.blocks.getD i none).isSome = true) ∧
      (bat 9 .pending 1 0 [none, some 1, none]).blocks.getD 0 none = none := by decide +kernel
theorem met_CancelByState : Takes 0x04 (rq 0x04 [0, 9]) (busy 0) ∧ (rq 0x04 [0, 9]).body.length = 2 ∧ BlocksAccounted (busy 0) ∧
    Scheduled (busy 0) ∧ findBatch 8 (busy 0) = none ∧ (findBatch 9 (busy 0)).map Batch.state = some .onAir ∧
    (findBatch 10 (busy 0)).map Batch.state = some .complete ∧ (findBatch 11 (busy 0)).map Batch.state = some .suspended :=
  ⟨takes_rq _ _ rfl, rfl, busy_accounted 0, busy_scheduled 0, by decide +kernel⟩

/-- Batch 11 is SUSPENDED: with a run of it still held for the open slot 0, with none, slot 1 spanning the tick, and with none in
the span of a slot 31 recorded early. -/
theorem met_CancelByState_suspended :
    let r := { run9 40 with content := .batch 11 0 2 .level4 { index := 1, count := 40 } }
    let k := ((spanning 101300000).modCar .c1 fun k => { k with timer := { k.timer with active := some r } }).car .c1
    (findBatch 11 (spanning 101300000)).map Batch.state = some .suspended ∧
    ((∃ r ∈ k.timer.runs, r.names 11 = true) ∧
      ∀ r ∈ k.timer.runs, r.names 11 = true → ∃ x ∈ k.sched.openSlots, x.slot = r.slot) ∧
    ((∀ r ∈ ((spanning 101300000).car .c1).timer.runs, r.names 11 = false) ∧
      ((spanning 101300000).car .c1).sched.closed = none ∧ inSpan (spanning 101300000).tracker (slot 1) = true) ∧
    let q : ClosedSlot := { slot := slotAt 4003 7 grid0, spanEnd := 110000000 }
    let s (t : Tick) := modSched .c1 (fun x => { x with closed := some q }) (busy t)
    (∀ r ∈ ((s 109999999).car .c1).timer.runs, r.names 11 = false) ∧ ((s 109999999).car .c1).sched.closed = some q ∧
      tickReached (s 109999999).tracker.tick (fxTick (slotStart q.slot)) = true ∧
      tickReached (s 109999999).tracker.tick q.spanEnd = false ∧ tickReached (s 110000000).tracker.tick q.spanEnd = true := by
  decide +kernel

/-- The run of batch 10 in slot 1. -/
def run10 : Run := { run9 0 with slot := slot 1, content := .batch 10 0 2 .level4 { index := 1, count := 40 } }

/-- Batch 10 is COMPLETE and incoming, its armed run waiting for the open slot 1. -/
def incoming10 : State :=
  modSched .c1 (fun x => { x with incoming := some 10 })
    ((setMaps .c1 { ((spanning 101300000).car .c1).maps with current := ClaimMap.empty } (spanning 101300000)).modCar .c1 fun k =>
      { k with timer := { k.timer with armed := some run10 } })

theorem met_CancelByState_incoming : Scheduled incoming10 ∧ BlocksAccounted incoming10 ∧
    (findBatch 10 incoming10).map Batch.state = some .complete ∧ (incoming10.car .c1).sched.incoming = some 10 ∧
    (∃ r ∈ (incoming10.car .c1).timer.runs, r.names 10 = true) ∧
    ∀ r ∈ (incoming10.car .c1).timer.runs, r.names 10 = true → ∃ x ∈ (incoming10.car .c1).sched.openSlots, x.slot = r.slot :=
  ⟨scheduled_of_ok (by unfold TableOrdered; decide +kernel) (by decide +kernel), busy_accounted 0, by decide +kernel⟩

/-! ### Witnesses: arithmetic and slot decisions -/

theorem met_LaunchArithmetic : ((-2500000 : Int) ≤ -2500000 ∧ (-2500000 : Int) ≤ 2500000) ∧ (2500000 : Int) ≤ 2500000 ∧
    (79992000 ≤ 79992000 ∧ 79992000 ≤ 80008000) ∧ 80008000 ≤ 80008000 := by decide
theorem met_OutputWord : ((-3 : Int) ≤ -3 ∧ (-3 : Int) ≤ 3) ∧
    (let w : WordSet := { gain := 0, centre := -16384 }; -16384 ≤ w.centre ∧ w.centre ≤ 16383 ∧ w.gain = 0) ∧
    (let w : WordSet := { gain := 65535, centre := 16383 }; -16384 ≤ w.centre ∧ w.centre ≤ 16383) := by decide

/-- What every decision statement assumes of carrier 1 and slot 1, but for the gates. -/
def decides (s : State) : Prop :=
  dueSlot .c1 s = some (slot 1) ∧ currentCycle .c1 s = some (slot 1).cycle ∧ (s.car .c1).maps.label = some (slot 1).cycle ∧
    (∀ o ∈ (s.car .c1).sched.openSlots, o.slot ≠ slot 1) ∧ s.batches.Pairwise (fun a b => a.id.toNat < b.id.toNat) ∧
    (∀ b ∈ s.batches, b.blocks.length = b.slots * b.rate.blocks) ∧
    ([Carrier.c1, .c2, .c3, .c4].all fun c => claimsOk c s && batchesOk c s) = true

/-- The last three say `Scheduled`. -/
theorem decides_scheduled {s : State} (h : decides s) : Scheduled s :=
  scheduled_of_ok ⟨h.2.2.2.2.1, h.2.2.2.2.2.1⟩ h.2.2.2.2.2.2

/-- The slot before, still open, does not stand in the way. -/
def opened (s : State) : State :=
  modSched .c1 (fun x => { x with openSlots := [{ slot := slot 0, program := .start 9, held := none }] }) s

/-- No gate closes on carrier 1. -/
def ungated (s : State) : Prop := decides s ∧ probeOn .c1 s = false ∧ (s.car .c1).power = .active

/-- A claimant under a gate, and no claimant under a gate. -/
theorem met_DecisionGated :
    (let s := (ready due1).setProbe { Probe.reset with phase := .observe }
     decides s ∧ probeOn .c1 s = true ∧ (s.car .c1).maps.current.get (1 : Fin 32) = some 9) ∧
    (let s := (ready due1).modCar .c1 fun k => { k with power := .standby }
     decides s ∧ (s.car .c1).power ≠ .active ∧ probeOn .c1 s = false) ∧
    (let s := (opened (live due1)).modCar .c1 fun k => { k with power := .awakening 0 }
     decides s ∧ (s.car .c1).power ≠ .active ∧ (s.car .c1).maps.current.get (1 : Fin 32) = none) := by
  unfold decides; decide +kernel

/-- What DecisionStarts assumes, with batch 9 complete since tick `e`. -/
def starts (s : State) (e : Tick) : Prop :=
  let b := { bat 9 .complete 1 0 [some 0, some 1, none] with completion := some e }
  ungated s ∧ (s.par .c1).markerSlot ≠ some (slot 1).index ∧ (s.car .c1).maps.current.get (slot 1).index = some b.id ∧
    findBatch b.id s = some b ∧ b.state = .complete ∧ b.last = some { index := 1, count := 40 } ∧
    ((s.align.active.records.get .c1).rows.get b.group).enabled = true ∧ (s.car .c1).sched.onAir = none ∧
    (s.car .c1).sched.incoming = none ∧
    ((s.car .c1).timer.active = none ∧ (s.car .c1).timer.armed = none ∧ (s.car .c1).timer.finishing = none) ∧
    (s.car .c1).key = .released

/-- `ready`, batch 9 complete since tick `e`, on a row of offset −2,500,000 ns: its key-up instant is reached at the decision. -/
def early (e : Tick) : State :=
  let s := modBatch 9 (fun b => { b with completion := some e }) (ready due1)
  let r := s.align.active.records.get .c1
  s.setAlign { s.align with active := { s.align.active with
    records := s.align.active.records.set .c1 { r with rows := r.rows.set 0 { enabled := true, offset := -2500000 } } } }

/-- A margin under warn, 2,500,000 ticks, one at it, and both sides of the key-up instant. -/
theorem met_DecisionStarts :
    (let s := ready due1
     let r := formRun .c1 (slot 1) 0 .a (.batch 9 0 2 .level4 { index := 1, count := 40 }) s
     starts s 99000000 ∧ (due1 - 99000000).toNat < (s.par .c1).warn * 10000 ∧
      tickReached due1 (fxTick r.launch - BitVec.ofNat 56 ((s.par .c1).lead * 10000)) = false) ∧
    (let s := early 98525000
     let r := formRun .c1 (slot 1) 0 .a (.batch 9 0 2 .level4 { index := 1, count := 40 }) s
     starts s 98525000 ∧ (due1 - 98525000).toNat = (s.par .c1).warn * 10000 ∧
      tickReached due1 (fxTick r.launch - BitVec.ofNat 56 ((s.par .c1).lead * 10000)) = true) := by
  unfold starts ungated decides; decide +kernel

/-- The 64th good START in a row with auto-clear on, and a delay that makes the offset −2,500,001 ns. -/
theorem met_DecisionStarts_alarms :
    (let s := modSched .c1 (fun x => { x with goodStarts := 63 })
      ((early 98525000).setMgmt { (early 98525000).mgmt with params := { (early 98525000).mgmt.params with autoClear := true } })
     starts s 98525000 ∧ (s.par .c1).warn * 10000 ≤ (due1 - 98525000).toNat ∧ (s.car .c1).sched.goodStarts + 1 = 64 ∧
      s.mgmt.params.autoClear = true) ∧
    (let s := (early 98525000).setAlign { (early 98525000).align with
      delays := (early 98525000).align.delays.set .c1 { value := 1, pending := none } }
     starts s 98525000 ∧
      ¬ -2500000 ≤ ((s.align.active.records.get .c1).rows.get 0).offset - ((s.align.delays.get .c1).value : Int)) := by
  unfold starts ungated decides; decide +kernel

/-- What Decides says of slot 1, and Scheduled. -/
theorem decides_of {s : State} (h : ungated s) : Decides .c1 (slot 1) s ∧ Scheduled s :=
  ⟨⟨h.1.1, h.1.2.1, h.1.2.2.1, h.1.2.2.2.1, h.2.1, h.2.2⟩, decides_scheduled h.1⟩

/-- `ready` with its claimant changed. -/
def claiming (f : Batch → Batch) : State := modBatch 9 f (ready due1)

/-- A claimant that is PENDING, one malformed besides, and a COMPLETE one of group 1, whose row is disabled. -/
theorem met_DecisionStarts_dropped (f : Batch → Batch)
    (h : f = (fun b => { b with state := .pending }) ∨ f = (fun b => { b with state := .pending, malformed := true }) ∨
      f = (fun b => { b with group := 1 })) :
    let s := claiming f
    let b := f (bat 9 .complete 1 0 [some 0, some 1, none])
    ungated s ∧ (s.par .c1).markerSlot ≠ some (slot 1).index ∧ (s.car .c1).maps.current.get (slot 1).index = some b.id ∧
    findBatch b.id s = some b ∧ (b.state ≠ .complete ∨ ¬ RowOn .c1 b s) ∧ (s.car .c1).sched.onAir = none ∧
    (s.car .c1).sched.stack = [] := by
  rcases h with h | h | h <;> subst h <;> (unfold ungated decides RowOn; decide +kernel)

/-- `busy` with batch 10 of priority `p`. -/
def meeting (p : Fin 4) : State := modBatch 10 (fun b => { b with priority := p }) (busy due1)

theorem met_DecisionPreempts (p : Fin 4) (hp : p = 1 ∨ p = 2) :
    let s := meeting p
    let a := bat 9 .onAir 1 1 [some 0, some 1, none]
    let b := bat 10 .complete p 0 [some 2, some 3, none]
    ungated s ∧ (s.par .c1).markerSlot ≠ some (slot 1).index ∧ (s.car .c1).maps.current.get (slot 1).index = some b.id ∧
    findBatch b.id s = some b ∧ b.state = .complete ∧ ((s.align.active.records.get .c1).rows.get b.group).enabled = true ∧
    (s.car .c1).sched.onAir = some a.id ∧ findBatch a.id s = some a ∧ a.last = some { index := 1, count := 40 } ∧
    a.nextBlock ≤ 1 ∧ a.cancelPending = false ∧ (s.car .c1).sched.incoming = none ∧
    (s.car .c1).sched.stack.length < 4 ∧ (p = 2 → a.priority < b.priority) ∧ (p = 1 → b.priority ≤ a.priority) := by
  rcases hp with h | h <;> subst h <;> (unfold ungated decides; decide +kernel)

/-- Batch 9 is ON_AIR with next block `next`, batch 10 claims slot 1 with priority 2, and these batches are SUSPENDED. -/
def stacked (next : Nat) (ids : List BatchId) : State :=
  modSched .c1 (fun x => { x with onAir := some 9, stack := ids })
    (claims 10 (stock ([bat 9 .onAir 1 next [], bat 10 .complete 2 0 []] ++ ids.map fun i => bat i .suspended 0 0 []) (live due1)))

/-- The batches of `stacked` with their position lists empty of blocks. -/
def bare (b : Batch) : Batch := { b with blocks := [none, none, none] }

/-- `stacked`, every position list of the three positions its header gives. -/
def piled (next : Nat) (ids : List BatchId) : State := (stacked next ids).setBatches ((stacked next ids).batches.map bare)

theorem met_DecisionPreempts_full :
    let s := piled 1 [11, 12, 13, 14]
    let a := bare (bat 9 .onAir 1 1 [])
    let b := bare (bat 10 .complete 2 0 [])
    ungated s ∧ (s.par .c1).markerSlot ≠ some (slot 1).index ∧ (s.car .c1).maps.current.get (slot 1).index = some b.id ∧
    findBatch b.id s = some b ∧ RowOn .c1 b s ∧ (s.car .c1).sched.onAir = some a.id ∧ findBatch a.id s = some a ∧
    (s.car .c1).sched.incoming = none ∧ (a.last = some { index := 1, count := 40 } ∧ a.nextBlock ≤ 1) ∧
    a.cancelPending = false ∧ a.priority < b.priority ∧
    (s.car .c1).sched.stack = [11, 12, 13] ++ [14] := by
  unfold ungated decides RowOn; decide +kernel
/-- Batch 9 of `s` finished, or with CANCEL_PENDING set and a block left; this run active. -/
def crossing (done : Bool) (r : Option Run) (s : State) : State :=
  modTimer .c1 (fun x => { x with active := r }) (modBatch 9 (fun b =>
    { b with nextBlock := if done then 2 else 1, cancelPending := !done }) s)

/-- The on-air batch of `crossing`. -/
def met9 (done : Bool) : Batch :=
  { bare (bat 9 .onAir 1 (if done then 2 else 1) []) with cancelPending := !done }
/-- It is finished, or stopped with no run of it held, or with one. -/
def overCase (done : Bool) (r : Option Run) : Prop := (done, r) = (true, none) ∨ (done, r) = (false, none) ∨ (done, r) = (false, some (run9 39))

theorem met_over {done : Bool} {r : Option Run} (h : overCase done r) :
    (done = true → ¬ Remains (met9 done)) ∧ (done = false → Remains (met9 done) ∧ (met9 done).cancelPending = true) := by
  refine ⟨fun e => ?_, fun e => ⟨⟨_, rfl, ?_⟩, ?_⟩⟩
  · subst e; rintro ⟨l, h1, h2⟩; cases h1; revert h2; decide
  · subst e; decide
  · subst e; rfl
theorem met_DecisionPreempts_incoming (done : Bool) (r : Option Run) (h : overCase done r) :
    let s := crossing done r (piled 1 [])
    let b := bare (bat 10 .complete 2 0 [])
    ungated s ∧ (s.car .c1).maps.current.get (slot 1).index = some b.id ∧ findBatch b.id s = some b ∧ RowOn .c1 b s ∧
    (s.par .c1).markerSlot ≠ some (slot 1).index ∧ (s.car .c1).sched.onAir = some (met9 done).id ∧
    findBatch 9 s = some (met9 done) ∧ (s.car .c1).sched.incoming = none ∧ b.last = some { index := 1, count := 40 } ∧
    (s.car .c1).timer.runs = r.toList ∧ (run9 39).names 9 = true := by
  rcases h with h | h | h <;> cases h <;> (unfold ungated decides RowOn; decide +kernel)

/-- `busy` with no claim: batch 9 is ON_AIR, batch 11 SUSPENDED. -/
def unclaimed : State := setMaps .c1 { ((busy due1).car .c1).maps with current := ClaimMap.empty } (busy due1)

/-- Slot 1 is the marker slot and the unit holds these bits. -/
def marking (bits : List Bool) (s : State) : State :=
  (withPar (fun p => { p with markerSlot := some 1 }) s).modCar .c1 fun k => { k with marker := bits }

/-- The marker step over a batch that is finished, or stopped. -/
theorem met_DecisionMarks_over (done bit : Bool) (r : Option Run) (h : overCase done r) :
    let s := crossing done r (marking [bit] (setMaps .c1 { ((live due1).car .c1).maps with current := ClaimMap.empty } (piled 1 [])))
    ungated s ∧ (s.par .c1).markerSlot = some (slot 1).index ∧ (s.car .c1).marker = [bit] ∧
    (s.car .c1).maps.current.get (slot 1).index = none ∧ (s.car .c1).sched.stack.length < 4 ∧
    (s.car .c1).sched.onAir = some (met9 done).id ∧ findBatch 9 s = some (met9 done) ∧
    (s.car .c1).timer.runs = r.toList := by
  rcases h with h | h | h <;> cases h <;> cases bit <;> (unfold ungated decides; decide +kernel)
/-- With a batch to push and a run active, and with nothing on air. -/
theorem met_DecisionMarks :
    (let s := (marking [true] unclaimed).modCar .c1 fun k =>
      { k with key := .keyed, timer := { active := some (run9 39), armed := none, finishing := none, acc := 0, step := 0 } }
     ungated s ∧ (s.par .c1).markerSlot = some (slot 1).index ∧ (s.car .c1).marker = [true] ∧
      (s.car .c1).maps.current.get (slot 1).index = none ∧ (s.car .c1).sched.stack.length < 4 ∧
      (s.car .c1).sched.onAir = some 9 ∧ findBatch 9 s = some (bat 9 .onAir 1 1 [some 0, some 1, none]) ∧
      (s.car .c1).timer.active = some (run9 39)) ∧
    (let s := marking [false, true] (live due1)
     ungated s ∧ (s.car .c1).marker = [false, true] ∧ (s.car .c1).sched.onAir = none ∧ (s.car .c1).timer.active = none) := by
  unfold ungated decides; decide +kernel

/-- Continued; stopped, its run held; resumed; quiet. -/
theorem met_DecisionContinues :
    (ungated unclaimed ∧ (unclaimed.car .c1).maps.current.get (slot 1).index = none ∧
      (unclaimed.par .c1).markerSlot ≠ some (slot 1).index ∧ (unclaimed.car .c1).sched.onAir = some 9 ∧
      findBatch 9 unclaimed = some (bat 9 .onAir 1 1 [some 0, some 1, none])) ∧
    (let b := { bat 9 .onAir 1 1 [some 0, some 1, none] with cancelPending := true }
     let s := modSched .c1 (fun x => { x with onAir := some 9 }) ((stock [b] (live due1)).modCar .c1 fun k =>
      { k with timer := { active := some (run9 39), armed := none, finishing := none, acc := 0, step := 0 } })
     ungated s ∧ (s.car .c1).sched.onAir = some b.id ∧ findBatch b.id s = some b ∧
      (s.car .c1).timer.active = some (run9 39) ∧ (run9 39).names b.id = true ∧ (s.car .c1).sched.stack = []) ∧
    (let x := bat 11 .suspended 0 1 [some 0, some 1, none]
     let s := modSched .c1 (fun y => { y with stack := [11] }) (stock [x] (live due1))
     ungated s ∧ (s.car .c1).sched.onAir = none ∧ (s.car .c1).sched.incoming = none ∧ (s.car .c1).sched.stack = [x.id] ∧
      findBatch x.id s = some x ∧ ((s.align.active.records.get .c1).rows.get x.group).enabled = true) ∧
    ungated (live due1) ∧ ((live due1).car .c1).sched.onAir = none ∧ ((live due1).car .c1).sched.stack = [] := by
  unfold ungated decides
  exact ⟨by decide +kernel, by decide +kernel, by decide +kernel, by decide +kernel⟩

/-- `piled` with no claim, batch `id` of group 1, whose row is disabled. -/
def barred (id : BatchId) (next : Nat) (ids : List BatchId) : State :=
  modBatch id (fun b => { b with group := 1 }) (setMaps .c1 { ((live due1).car .c1).maps with current := ClaimMap.empty } (piled next ids))

/-- `barred` with this Launch Timer and nothing on air. -/
def offAir (id : BatchId) (ids : List BatchId) : State :=
  modSched .c1 (fun x => { x with onAir := none }) (removeBatch 9 (barred id 1 ids))

/-- The on-air batch of a disabled row, with a run of it and without. -/
theorem met_DecisionContinues_barred (r : Option Run) (h : r = none ∨ r = some (run9 39)) :
    let s := modTimer .c1 (fun x => { x with active := r }) (barred 9 1 [])
    let a := { bare (bat 9 .onAir 1 1 []) with group := 1 }
    ungated s ∧ (s.car .c1).maps.current.get (slot 1).index = none ∧ (s.car .c1).sched.onAir = some a.id ∧
    findBatch a.id s = some a ∧ (a.last = some { index := 1, count := 40 } ∧ a.nextBlock ≤ 1) ∧
    a.cancelPending = false ∧ ¬ RowOn .c1 a s ∧ (s.car .c1).sched.stack = [] ∧
    (s.car .c1).sched.incoming = none ∧ (s.car .c1).timer.runs = r.toList ∧ (run9 39).names a.id = true := by
  rcases h with h | h <;> subst h <;> (unfold ungated decides RowOn; decide +kernel)
theorem met_DecisionContinues_skipped :
    let s := offAir 11 [11, 12, 13]
    let x := { bare (bat 11 .suspended 0 0 []) with group := 1 }
    let y := bare (bat 12 .suspended 0 0 [])
    ungated s ∧ (s.car .c1).maps.current.get (slot 1).index = none ∧ (s.car .c1).sched.onAir = none ∧
    (s.car .c1).sched.incoming = none ∧ (s.car .c1).sched.stack = [x.id, y.id, 13] ∧ findBatch x.id s = some x ∧
    findBatch y.id s = some y ∧ ¬ RowOn .c1 x s ∧ RowOn .c1 y s := by
  unfold ungated decides RowOn; decide +kernel
/-- A resume over a finished batch, and over one stopped CANCELLED; nothing to resume over either. -/
theorem met_DecisionContinues_incoming (done : Bool) (r : Option Run) (ids : List BatchId) (h : overCase done r)
    (hi : ids = [] ∨ ids = [11]) :
    let s := crossing done r (barred 0 1 ids)
    let x := bare (bat 11 .suspended 0 0 [])
    ungated s ∧ (s.car .c1).maps.current.get (slot 1).index = none ∧ (s.car .c1).sched.onAir = some (met9 done).id ∧
    findBatch 9 s = some (met9 done) ∧ (s.car .c1).sched.incoming = none ∧ (s.car .c1).sched.stack = ids ∧
    (s.car .c1).timer.runs = r.toList ∧ (ids = [11] → findBatch x.id s = some x ∧ RowOn .c1 x s) := by
  rcases h with h | h | h <;> cases h <;> rcases hi with hi | hi <;> subst hi <;>
    (unfold ungated decides RowOn; decide +kernel)
/-- A resume over a batch stopped NOT_IN_GROUP. -/
theorem met_DecisionContinues_notInGroup (r : Option Run) (h : r = none ∨ r = some (run9 39)) :
    let s := modTimer .c1 (fun x => { x with active := r }) (barred 9 1 [11])
    let a := { bare (bat 9 .onAir 1 1 []) with group := 1 }
    let x := bare (bat 11 .suspended 0 0 [])
    ungated s ∧ (s.car .c1).maps.current.get (slot 1).index = none ∧ (s.car .c1).sched.onAir = some a.id ∧
    findBatch a.id s = some a ∧ (a.last = some { index := 1, count := 40 } ∧ a.nextBlock ≤ 1) ∧ a.cancelPending = false ∧
    ¬ RowOn .c1 a s ∧ (s.car .c1).sched.incoming = none ∧ (s.car .c1).sched.stack = [x.id] ∧ findBatch x.id s = some x ∧
    RowOn .c1 x s ∧ (s.car .c1).timer.runs = r.toList := by
  rcases h with h | h <;> subst h <;> (unfold ungated decides RowOn; decide +kernel)

/-- Slot 1 of this epoch, slot 0 of the next, no slot one tick before either, and a carrier that is not enabled. -/
theorem met_DecisionInstant : dueSlot .c1 (live due1) = some (slot 1) ∧
    dueSlot .c1 (live 109775000) = some (slotAt 4001 0 grid1) ∧ dueSlot .c1 (live 101024999) = none ∧
    dueSlot .c1 (live 109774999) = none ∧ ((live due1).par .c2).enabled = false ∧ timingAvailable State.reset = false := by
  decide +kernel

/-- Slot 1 of the current grid and slot 0 of the next at their instants, unsettled, and no other slot starts at either's tick. -/
theorem met_DecisionInstant_due (t : Tick) (sl : SlotRef)
    (h : (t, sl) = (due1, slotAt 4000 1 grid0) ∨ (t, sl) = (109775000, slotAt (4000 + 1) 0 grid1)) :
    ((live t).par .c1).enabled = true ∧ timingAvailable (live t) = true ∧ (live t).tracker.epoch = some 4000 ∧
    (live t).tracker.current = some grid0 ∧ (live t).tracker.next = some grid1 ∧
    (live t).tracker.tick = fxTick (slotStart sl) - BitVec.ofNat 56 (((live t).par .c1).lead * 10000 + 25000) ∧
    unsettled .c1 sl (live t) = true ∧ ∀ x ∈ candidateSlots (live t), fxTick (slotStart x) = fxTick (slotStart sl) → x = sl := by
  rcases h with h | h <;> cases h <;> decide +kernel

/-- Slot 1 is decided: it is settled, as slot 0 is, and slot 2 is not; every instant lies within the span of 100,000,000. -/
theorem met_DecisionInstant_settled :
    let s := after (exec (.slotDecision .c1) (ready due1))
    let z := tickFx 100000000
    (∀ x ∈ candidateSlots s, (slotStart x - z).toNat < 2 ^ 70) ∧ (s.car .c1).sched.settled = some (slotStart (slot 1)) ∧
      (slotStart (slot 1) - z).toNat < 2 ^ 70 ∧ unsettled .c1 (slot 1) s = false ∧ (slotStart (slot 0) - z).toNat < 2 ^ 70 ∧
      unsettled .c1 (slot 0) s = false ∧ unsettled .c1 (slot 2) s = true := by decide +kernel

/-- `opened`, the outcome array carrying this label, at tick `t`. -/
def ending (t : Tick) (n : Option CycleNo) : State :=
  modSched .c1 (fun x => { x with outcomes := { x.outcomes with label := n } }) (opened (live t))

theorem met_SlotsAndMapsTurnOver_end (n : Option CycleNo) :
    slotEndTick (ending 101250000 n).tracker (slot 0) = some (ending 101250000 n).tracker.tick ∧
    ((ending 101250000 n).car .c1).sched.openSlots = [{ slot := slot 0, program := .start 9, held := none }] ∧
    ((ending 101250000 n).car .c1).sched.outcomes.label = n := by
  have h : slotEndTick (live 101250000).tracker (slot 0) = some (live 101250000).tracker.tick := by decide +kernel
  exact ⟨h, rfl, rfl⟩
theorem met_SlotsAndMapsTurnOver_advance :
    (currentCycle .c1 (live 0) = some 1000 ∧ dueSlot .c1 (live 0) = none ∧ ((live 0).car .c1).maps.label = some 1000) ∧
    (let s := setMaps .c1 { ((live 0).car .c1).maps with label := some 999 } (live 0)
     currentCycle .c1 s = some 1000 ∧ dueSlot .c1 s = none ∧ (s.car .c1).maps.label = some ((1000 : CycleNo) - 1)) := by
  decide +kernel
theorem met_SlotsAndMapsTurnOver_empty : EmptyMap ((live 0).car .c1).maps.current := by unfold EmptyMap; decide +kernel

/-- Epoch 4003: slot 0 of epoch 4004, the first of cycle 1001, is due at tick 109,775,000, the maps still of cycle 1000. -/
def rollover : State := tuned (fun t => { t with epoch := some 4003 }) (live 109775000)

theorem met_SlotsAndMapsTurnOver_roll : dueSlot .c1 rollover = some (slotAt 4004 0 grid1) ∧
    currentCycle .c1 rollover = some 1001 ∧ (rollover.car .c1).maps.label = some ((1001 : CycleNo) - 1) ∧
    EmptyMap (rollover.car .c1).maps.current := by unfold EmptyMap; decide +kernel

/-- `rollover` with slot 0 decided and its lead of 20 ms lowered to 0, so that the instant by the lead lies ahead. -/
def lowered : State := withPar (fun p => { p with lead := 0 }) (after (exec (.slotDecision .c1) rollover))

/-- The current cycle one tick before the instant of slot 0, at it, after it under a lowered lead, in an epoch that ends no
cycle, and without timing. -/
theorem met_SlotsAndMapsTurnOver_cycle :
    (timingAvailable lowered = true ∧ lowered.tracker.epoch = some 4003 ∧ lowered.tracker.next = some grid1 ∧
      ((4003 : EpochNo) + 1).toNat % 4 = 0 ∧ unsettled .c1 (slotAt 4004 0 grid1) lowered = false) ∧
    tickReached lowered.tracker.tick (fxTick grid1.pred - BitVec.ofNat 56 ((lowered.par .c1).lead * 10000 + 25000)) = false ∧
    (let s := tuned (fun t => { t with tick := 109774999 }) rollover
     tickReached s.tracker.tick (fxTick grid1.pred - BitVec.ofNat 56 ((s.par .c1).lead * 10000 + 25000)) = false ∧
      unsettled .c1 (slotAt 4004 0 grid1) s = true) ∧
    tickReached rollover.tracker.tick (fxTick grid1.pred - BitVec.ofNat 56 ((rollover.par .c1).lead * 10000 + 25000)) = true ∧
    ((live 0).tracker.epoch = some 4000 ∧ ((4000 : EpochNo) + 1).toNat % 4 ≠ 0) ∧ timingAvailable lost = false := by
  decide +kernel

/-- R62, R86, R66: slot 0 of cycle 1001 decided, its lead is then lowered: the cycle stays 1001, and a header for that slot is
LATE. -/
theorem test_cycle_stays : currentCycle .c1 lowered = some 1001 ∧
    judgeHeader (headerFrame (header 1 0xE9 0 1 1).body) .c1 lowered = .refused .late := by decide +kernel

/-- One tick later, slot 0 settled, batch 9 of cycle 1000 still claims slot 1, and slot 7 of epoch 4003 spans the tick. -/
def stale : State :=
  modSched .c1 (fun x => { x with openSlots := [{ slot := slotAt 4003 7 grid0, program := .quiet, held := none }] })
    (claims 9 (stock [bat 9 .complete 1 0 [some 0, some 1, none]] (tuned (fun t => { t with epoch := some 4003 }) (live 109775001))))

theorem met_SlotsAndMapsTurnOver_stale : currentCycle .c1 stale = some 1001 ∧ dueSlot .c1 stale = none ∧
    (stale.car .c1).maps.label = some ((1001 : CycleNo) - 1) ∧ (stale.car .c1).maps.current.get (1 : Fin 32) = some 9 ∧
    (∀ j : Fin 32, j ≠ 1 → (stale.car .c1).maps.current.get j = none) ∧
    ((stale.car .c1).timer.active = none ∧ (stale.car .c1).timer.armed = none ∧ (stale.car .c1).timer.finishing = none) ∧
    (stale.car .c1).sched.closed = none ∧ inSpan stale.tracker (slotAt 4003 7 grid0) = true := by decide +kernel
theorem met_SlotsAndMapsTurnOver_stale_scheduled : Scheduled stale :=
  scheduled_of_ok (by unfold TableOrdered; decide +kernel) (by decide +kernel)

/-! ### Witnesses: symbols, payload ends, keys -/

/-- A class A marker run of slot 1 for carrier 1. -/
def marker1 (pos : Nat) : Run := { run9 pos with slot := slot 1, content := .marker }

theorem emits_now (r : Run) : ((emitting r).car .c1).timer.active = some r ∧
    (emitting r).tracker.tick = fxTick ((emitting r).car .c1).timer.acc := by
  have : (101000000 : Tick) = fxTick (tickFx 101000000) := by decide +kernel
  exact ⟨rfl, this⟩
/-- A block's first place with its tag, a place inside, the first past the last block, the last symbol, a marker's. -/
theorem met_SymbolEmitted :
    ((run9 0).blockPlace = some (9, 0, 0) ∧ findBatch 9 (emitting (run9 0)) = some (bat 9 .onAir 1 1 [some 0, some 1, none]) ∧
      (readBlock 0 (emitting (run9 0))).tag = .held 9 0) ∧
    (run9 40).blockPlace = some (9, 1, 0) ∧ (readBlock 1 (emitting (run9 40))).tag = .held 9 1 ∧
    (run9 41).blockPlace = some (9, 1, 1) ∧ (run9 80).blockPlace = none ∧ (run9 119).blockPlace = none ∧
    (run9 119).symbols ≤ 119 + 1 ∧ (run9 118).pos + 1 < (run9 118).symbols ∧ (marker1 0).blockPlace = none := by decide +kernel

/-- Symbol 0 with the key PENDING at its own tick, of the opening run, and of a run that opens nothing. -/
theorem met_SymbolEmitted_opening :
    (let s := (emitting (run9 0)).modCar .c1 fun k => { k with key := .pending 101000000 }
     (run9 0).pos = 0 ∧ (s.car .c1).key = .pending s.tracker.tick ∧ (s.car .c1).timer.active = some (run9 0)) ∧
    (let s := (emitting (run9 0)).modCar .c1 fun k => { k with monitor := { k.monitor with opening := some (slot 0) } }
     (s.car .c1).monitor.opening = some (run9 0).slot ∧ (s.car .c1).monitor.rfSense = false) ∧
    ((emitting (run9 0)).car .c1).key = .keyed ∧ ((emitting (run9 0)).car .c1).monitor.opening ≠ some (run9 0).slot := by
  decide +kernel

/-- `emitting` with the tag of store block 0 SPENT. -/
def spoiled : State := writeTag 0 .spent (emitting (run9 0))

theorem met_StoreGuardChecks_spoiled : BlocksAccounted spoiled ∧ (run9 0).blockPlace = some (9, 0, 0) ∧
    findBatch 9 spoiled = some (bat 9 .onAir 1 1 [some 0, some 1, none]) ∧ (spoiled.car .c1).key ≠ .probe ∧
    (readBlock 0 spoiled).tag ≠ .held 9 0 ∧ (spoiled.car .c1).timer.active = some (run9 0) := by
  refine ⟨accounted_of_ok (by unfold TableOrdered; decide +kernel) (by decide +kernel), by decide +kernel⟩
theorem met_StoreGuardChecks_spoiled_scheduled : Scheduled spoiled :=
  scheduled_of_ok (by unfold TableOrdered; decide +kernel) (by decide +kernel)
/-- A fault in a run of the on-air batch 9, the armed run of the incoming batch 10 waiting for slot 1, both slots open. -/
def faulting : State :=
  modSched .c1 (fun x => { x with
    incoming := some 10
    openSlots := [{ slot := slot 0, program := .start 9, held := none }, { slot := slot 1, program := .start 10, held := none }] })
    ((setMaps .c1 { (spoiled.car .c1).maps with current := ClaimMap.empty } (modBatch 10 (fun b => { b with nextBlock := 2 }) spoiled)).modCar
      .c1 fun k => { k with timer := { k.timer with armed := some run10 } })

/-- A fault in a run of the SUSPENDED batch 11, an armed run of the on-air batch 9 behind it. -/
def faulting11 : State :=
  let r := { run9 0 with content := .batch 11 0 2 .level4 { index := 1, count := 40 } }
  writeTag 4 .spent ((emitting r).modCar .c1 fun k => { k with timer := { k.timer with armed := some { run9 0 with slot := slot 1 } } })

/-- The on-air batch 9 stopped CANCELLED, its finishing run held; a fault in symbol 0 of the incoming batch 10 (R34). -/
def stopping : State :=
  modSched .c1 (fun x => { x with
    stop := some .cancelled, incoming := some 10
    openSlots := [{ slot := slot 0, program := .start 9, held := none },
      { slot := slot 1, program := .start 10, held := some { code := .cancelled, id := some 9 } }] })
    (writeTag 2 .spent ((setMaps .c1 { ((live 0).car .c1).maps with current := ClaimMap.empty }
      (modBatch 9 (fun b => { b with cancelPending := true }) (modBatch 10 (fun b => { b with nextBlock := 2 }) (emitting run10)))).modCar
        .c1 fun k => { k with timer := { k.timer with finishing := some (run9 120) } }))

theorem met_StoreGuardChecks_stopping : Scheduled stopping ∧ BlocksAccounted stopping ∧
    (stopping.car .c1).timer.active = some run10 ∧ run10.blockPlace = some (10, 0, 0) ∧
    (findBatch 10 stopping).map (fun b => b.blocks.getD 0 none) = some (some 2) ∧ (readBlock 2 stopping).tag ≠ .held 10 0 ∧
    (stopping.car .c1).sched.onAir = some 9 ∧ (stopping.car .c1).sched.incoming = some 10 ∧
    (stopping.car .c1).timer.runs.map (fun q => (q.names 9, q.names 10)) = [(false, true), (true, false)] :=
  ⟨scheduled_of_ok (by unfold TableOrdered; decide +kernel) (by decide +kernel),
    accounted_of_ok (by unfold TableOrdered; decide +kernel) (by decide +kernel), by decide +kernel⟩

/-- R92, R97: the fault discards the run the stop waited for; the next decision ends the cancelled batch 9 at once, and resumes
batch 11. -/
theorem test_stop_withdrawn :
    let s := after (exec (.symbolEmit .c1) stopping)
    let t := after (exec (.slotDecision .c1) (tuned (fun x => { x with tick := 102275000 }) s))
    (s.car .c1).sched.onAir = some 9 ∧ (s.car .c1).sched.stop = none ∧ (s.car .c1).timer.runs = [] ∧
    findBatch 9 t = none ∧ (t.car .c1).sched.onAir = some 11 ∧
    (t.car .c1).sched.openSlots.map OpenSlot.held = [some { code := .cut, id := some 9 },
      some { code := .guardFault, id := some 10 }, some { code := .cancelled, id := some 9 }] := by decide +kernel
theorem met_StoreGuardChecks_handOver : Scheduled faulting ∧ BlocksAccounted faulting ∧
    (∀ q ∈ (faulting.car .c1).timer.runs, ∃ o ∈ (faulting.car .c1).sched.openSlots, o.slot = q.slot) ∧
    (faulting.car .c1).sched.onAir = some 9 ∧ (faulting.car .c1).sched.incoming = some 10 ∧
    (faulting.car .c1).timer.runs.map (fun q => (q.names 10, q.names 9)) = [(true, false), (false, true)] :=
  ⟨scheduled_of_ok (by unfold TableOrdered; decide +kernel) (by decide +kernel),
    accounted_of_ok (by unfold TableOrdered; decide +kernel) (by decide +kernel), by decide +kernel⟩
theorem met_StoreGuardChecks_suspended : Scheduled faulting11 ∧ BlocksAccounted faulting11 ∧
    (faulting11.car .c1).sched.onAir = some 9 ∧ (faulting11.car .c1).sched.stack = [11] ∧
    (∀ n, (bat 11 .suspended 0 0 [some 4, some 5, none]).blocks.getD 0 none = some n → (readBlock n faulting11).tag ≠ .held 11 0) ∧
    (faulting11.car .c1).timer.runs.map (fun q => (q.names 9, q.names 10)) = [(true, false), (false, false)] :=
  ⟨scheduled_of_ok (by unfold TableOrdered; decide +kernel) (by decide +kernel),
    accounted_of_ok (by unfold TableOrdered; decide +kernel) (by decide +kernel),
    rfl, rfl, (fun n h => by cases h; decide +kernel), by decide +kernel⟩
/-- The 40th place, the guard test armed or not. -/
theorem met_StoreGuardChecks_last (armed : Bool) :
    let s := (emitting (run9 39)).modCar .c1 fun k => { k with guardArmed := armed }
    BlocksAccounted s ∧ (run9 39).blockPlace = some (9, 0, 39) ∧
    findBatch 9 s = some (bat 9 .onAir 1 1 [some 0, some 1, none]) ∧ (s.car .c1).key ≠ .probe ∧ (s.car .c1).guardArmed = armed := by
  refine ⟨busy_accounted 101000000, by decide +kernel, ?_, by cases armed <;> decide +kernel, rfl⟩
  have : findBatch 9 (busy 0) = some (bat 9 .onAir 1 1 [some 0, some 1, none]) := by decide +kernel
  exact this
theorem met_StoreGuardChecks_last_scheduled (armed : Bool) :
    Scheduled ((emitting (run9 39)).modCar .c1 fun k => { k with guardArmed := armed }) :=
  scheduled_of_ok (by unfold TableOrdered; cases armed <;> decide +kernel) (by cases armed <;> decide +kernel)

/-- The 40th place inside a run, and as its last with an armed run or none behind it. -/
theorem met_StoreGuardChecks_advance :
    let last : Run := { run9 119 with content := .batch 9 0 3 .level4 { index := 2, count := 40 } }
    ((run9 39).blockPlace = some (9, 0, 39) ∧ (run9 39).pos + 1 < (run9 39).symbols) ∧
    (last.blockPlace = some (9, 2, 39) ∧ last.symbols ≤ last.pos + 1) ∧
    ((emitting last).car .c1).timer.armed = none ∧
    ((modTimer .c1 (fun x => { x with armed := some (run9 0) }) (emitting last)).car .c1).timer.armed = some (run9 0) := by
  decide +kernel

/-- `busy` without its claim, batch 10 incoming, at the payload end of the run `r` of slot 0. -/
def finishing (r : Run) : State :=
  let s := setMaps .c1 { ((busy 0).car .c1).maps with current := ClaimMap.empty } (airing 101200000
    { active := none, armed := none, finishing := some r, acc := 0, step := 0 })
  modSched .c1 (fun x => { x with incoming := some 10 }) s

/-- The run of the last block, one of an earlier block, a marker's; with no later run, the tail 50 ms or 0. -/
theorem met_PayloadEnds (r : Run) (h : r = run9 120 ∨ r = { run9 120 with content := .batch 9 0 1 .level4 { index := 1, count := 40 } } ∨
    r = { run9 120 with content := .marker }) :
    ((finishing r).car .c1).timer.finishing = some r ∧ (finishing r).tracker.tick = r.payloadEnd ∧
    ((finishing r).car .c1).key = .keyed ∧ ((finishing r).car .c1).timer.active = none ∧
    ((finishing r).car .c1).timer.armed = none ∧ ((finishing r).par .c1).tail ≠ 0 ∧
    ((finishing r).car .c1).sched.onAir = some 9 ∧ ((finishing r).car .c1).sched.incoming = some 10 ∧
    ((withPar (fun p => { p with tail := 0 }) (finishing r)).par .c1).tail = 0 ∧
    findBatch 9 (finishing r) = some (bat 9 .onAir 1 1 [some 0, some 1, none]) := by
  rcases h with h | h | h <;> subst h <;> decide +kernel
theorem met_PayloadEnds_scheduled : Scheduled (finishing (run9 120)) ∧
    Scheduled (finishing { run9 120 with content := .batch 9 0 1 .level4 { index := 1, count := 40 } }) ∧
    Scheduled (finishing { run9 120 with content := .marker }) :=
  ⟨scheduled_of_ok (by unfold TableOrdered; decide +kernel) (by decide +kernel),
    scheduled_of_ok (by unfold TableOrdered; decide +kernel) (by decide +kernel),
    scheduled_of_ok (by unfold TableOrdered; decide +kernel) (by decide +kernel)⟩

/-- The run of an earlier block, and the end of the run of slot 0 with slots 0 and 1 open, slot 0 holding `held`. -/
def earlier : Run := { run9 120 with content := .batch 9 0 1 .level4 { index := 1, count := 40 } }
def twoOpen (held : Option SlotOutcome) (r : Run) : State :=
  modSched .c1 (fun x => { x with openSlots :=
    [{ slot := slot 0, program := .start 9, held := held }, { slot := slot 1, program := .start 10, held := none }] }) (finishing r)

/-- Two open slots, nothing held or CANCELLED held; a stop that waited; a run whose batch has ended. -/
theorem met_PayloadEnds_open (held : Option SlotOutcome)
    (h : held = none ∨ held = some { code := .cancelled, id := some 9 }) :
    (∃ o ∈ ((twoOpen held (run9 120)).car .c1).sched.openSlots, o.slot = (run9 120).slot ∧ o.held = held) ∧
    ((twoOpen held (run9 120)).car .c1).timer.finishing = some (run9 120) ∧
    (twoOpen held (run9 120)).tracker.tick = (run9 120).payloadEnd ∧ (run9 120).ended = false ∧ (run9 120).batchId = some 9 ∧
    (findBatch 9 (twoOpen held (run9 120))).isSome = true := by
  rcases h with h | h <;> subst h <;> decide +kernel
theorem met_PayloadEnds_stopped :
    let s := modSched .c1 (fun x => { x with stop := some .cancelled }) (finishing earlier)
    (s.car .c1).timer.finishing = some earlier ∧ s.tracker.tick = earlier.payloadEnd ∧ earlier.ended = false ∧ 1 ≤ 1 ∧
    (s.car .c1).sched.stop = some .cancelled ∧ (s.car .c1).sched.onAir = some 9 ∧ (s.car .c1).sched.incoming = some 10 ∧
    (findBatch 9 s).map Batch.carrier = some .c1 := by decide +kernel
theorem met_PayloadEnds_ended :
    let r := { run9 120 with ended := true }
    ((finishing r).car .c1).timer.finishing = some r ∧ (finishing r).tracker.tick = r.payloadEnd ∧ r.batchId = some 9 ∧
    r.ended = true := by decide +kernel
theorem met_PayloadEnds_more_scheduled :
    Scheduled (twoOpen none (run9 120)) ∧ Scheduled (twoOpen (some { code := .cancelled, id := some 9 }) (run9 120)) ∧
    Scheduled (modSched .c1 (fun x => { x with stop := some .cancelled }) (finishing earlier)) ∧
    Scheduled (finishing { run9 120 with ended := true }) :=
  ⟨scheduled_of_ok (by unfold TableOrdered; decide +kernel) (by decide +kernel),
    scheduled_of_ok (by unfold TableOrdered; decide +kernel) (by decide +kernel),
    scheduled_of_ok (by unfold TableOrdered; decide +kernel) (by decide +kernel),
    scheduled_of_ok (by unfold TableOrdered; decide +kernel) (by decide +kernel)⟩

/-- Carrier 1 of `live`, changed. -/
def liveCar (t : Tick) (f : CarrierState → CarrierState) : State := (live t).modCar .c1 f

theorem met_KeyAndMonitorTimers :
    (let s := liveCar 7 fun k => { k with key := .pending 7, timer := { k.timer with active := some (run9 0) } }
     (s.car .c1).key = .pending s.tracker.tick ∧ (s.car .c1).timer.active = some (run9 0)) ∧
    (let s := liveCar 7 fun k => { k with key := .tail 7 }; (s.car .c1).key = .tail s.tracker.tick) ∧
    (let s := liveCar 7 fun k => { k with power := .awakening 7 }; (s.car .c1).power = .awakening s.tracker.tick) ∧
    ((live 7).tracker.ref ≠ .noClock ∧ (live 7).firstEdge = false) ∧ lost.tracker.ref = .noClock ∧
    (let s := liveCar 1000007 fun k => { k with monitor := { k.monitor with presence := some 7 } }
     (s.car .c1).monitor.presence = some 7 ∧ s.tracker.tick = 7 + BitVec.ofNat 56 1000000 ∧
      keyLine (s.car .c1).key = false) := by decide +kernel

/-- No reference edge since the reset; a NO_CARRIER check made at this tick, the alarm clear before it, and one of another tick. -/
theorem met_KeyAndMonitorTimers_check : State.reset.firstEdge = true ∧
    (let k : CarrierCheck := { tick := 7, wasClear := true }
     let s := liveCar 7 fun x => { x with monitor := { x.monitor with checked := some k } }
     (s.car .c1).monitor.checked = some k ∧ k.tick = s.tracker.tick ∧ ({ k with tick := 6 } : CarrierCheck).tick ≠ s.tracker.tick) ∧
    ((live 7).car .c1).monitor.checked = none ∧ (live 7).firstEdge = false ∧ (live 7).tracker.ref ≠ .noClock := by decide +kernel

/-- A QUIET check of carrier 1 that has passed at tick 500,000 (R147). -/
def passed : State := after (exec .observeEnd (probing .observe 500000 500000))

/-- Its record, at the tick of its end; RF is then present. -/
theorem met_KeyAndMonitorTimers_late : passed.tracker.ref ≠ .noClock ∧ passed.firstEdge = false ∧
    passed.probe.phase ≠ .observe ∧ passed.probe.result.any (fun r =>
      r.carrier = .c1 ∧ r.outcome = .pass ∧ r.endTick = some passed.tracker.tick) = true := by decide +kernel
/-- R147: RF present at T + 500,000 fails the check, whichever command comes first; one tick later it does not. -/
theorem test_quiet_end :
    (after (exec (.rfSenseChange .c1 true) passed)).probe.result.map ProbeRecord.outcome = some .fail ∧
    (after (exec .observeEnd (after (exec (.rfSenseChange .c1 true) (probing .observe 500000 500000))))).probe.result.map
      ProbeRecord.outcome = some .fail ∧
    (after (exec (.rfSenseChange .c1 true) (tuned (fun t => { t with tick := 500001 }) passed))).probe.result.map
      ProbeRecord.outcome = some .pass := by decide +kernel

/-! ### Witnesses: requests of the carriers' units and the probe -/

theorem met_MarkerRequestsJudged_units : Takes 0x38 (rq 0x38 [1]) (live 0) ∧ Takes 0x32 (rq 0x32 [1]) (live 0) ∧
    1 ≤ (rq 0x38 [1]).body.length ∧ carrierOf (field (rq 0x38 [4]).body 0 1) = some .c4 ∧ field (rq 0x38 [0]).body 0 1 = 0 ∧
    4 < field (rq 0x32 [5]).body 0 1 := ⟨takes_rq _ _ rfl, takes_rq _ _ rfl, by decide +kernel⟩
/-- One bit, 64 bits, no bit, 65 bits, one bit more than the body holds. -/
theorem met_MarkerRequestsJudged_load :
    let one := (rq 0x31 [1, 1, 0x80]).body
    let most := (rq 0x31 [4, 64, 1, 2, 3, 4, 5, 6, 7, 8]).body
    Takes 0x31 (rq 0x31 [1, 1, 0x80]) (live 0) ∧ 2 ≤ one.length ∧ carrierOf (field one 0 1) = some .c1 ∧
    (1 ≤ field one 1 1 ∧ field one 1 1 ≤ 64 ∧ field one 1 1 ≤ 8 * (one.length - 2)) ∧ carrierOf (field most 0 1) = some .c4 ∧
    (1 ≤ field most 1 1 ∧ field most 1 1 ≤ 64 ∧ field most 1 1 ≤ 8 * (most.length - 2)) ∧
    ((live 0).car .c1).marker = [] ∧ ((marking [true] (live 0)).car .c1).marker ≠ [] ∧
    ¬ 1 ≤ field (rq 0x31 [1, 0]).body 1 1 ∧ ¬ field (rq 0x31 [1, 65, 1, 2, 3, 4, 5, 6, 7, 8, 9]).body 1 1 ≤ 64 ∧
    ¬ field (rq 0x31 [1, 9, 1]).body 1 1 ≤ 8 * ((rq 0x31 [1, 9, 1]).body.length - 2) ∧
    carrierOf (field (rq 0x31 [5, 1, 0x80]).body 0 1) = none := ⟨takes_rq _ _ rfl, by decide +kernel⟩
/-- The conditions met, and each of them not met. -/
theorem met_StandbyJudged : Takes 0x30 (rq 0x30 [1]) (live 0) ∧ 1 ≤ (rq 0x30 [1]).body.length ∧
    carrierOf (field (rq 0x30 [1]).body 0 1) = some .c1 ∧ carrierOf (field (rq 0x30 [0]).body 0 1) = none ∧
    carrierOf (field (rq 0x30 [5]).body 0 1) = none ∧ ((live 0).batches = [] ∧ ((live 0).car .c1).key = .released ∧
      ¬ ((live 0).probe.phase ≠ .idle ∧ (live 0).probe.carrier = .c1) ∧ ((live 0).car .c1).marker = []) ∧
    ¬ (∀ b ∈ (busy 0).batches, b.carrier ≠ .c1) ∧ ((liveCar 7 fun k => { k with key := .tail 7 }).car .c1).key ≠ .released ∧
    (probing .observe 7 0).probe.phase ≠ .idle ∧ (probing .observe 7 0).probe.carrier = .c1 ∧
    ((marking [true] (live 0)).car .c1).marker ≠ [] := ⟨takes_rq _ _ rfl, by decide +kernel⟩
theorem met_ProbeStartJudged : Takes 0x34 (rq 0x34 [1, 0, 1]) (live 0) ∧ Takes 0x34 (rq 0x34 [1, 1, 0]) (live 0) ∧
    3 ≤ (rq 0x34 [1, 0, 1]).body.length ∧ carrierOf (field (rq 0x34 [1, 0, 1]).body 0 1) = some .c1 ∧
    field (rq 0x34 [1, 0, 1]).body 1 1 = 0 ∧ field (rq 0x34 [1, 1, 0]).body 1 1 = 1 ∧
    carrierOf (field (rq 0x34 [0, 0, 1]).body 0 1) = none ∧ 1 < field (rq 0x34 [1, 2, 1]).body 1 1 ∧
    (probing .observe 7 0).probe.phase ≠ .idle ∧ (live 0).probe.phase = .idle ∧ lost.tracker.ref = .noClock ∧
    State.reset.tracker.ref = .acquiring ∧ (live 0).tracker.ref = .locked ∧
    ((liveCar 0 fun k => { k with power := .standby }).car .c1).power ≠ .active ∧ ((live 0).car .c1).power = .active ∧
    ((liveCar 0 fun k => { k with key := .tail 7 }).car .c1).key ≠ .released ∧ ((busy 0).car .c1).sched.onAir.isSome = true ∧
    ((live 0).car .c1).key = .released ∧ ((live 0).car .c1).sched.onAir = none :=
  ⟨takes_rq _ _ rfl, takes_rq _ _ rfl, by decide +kernel⟩
theorem met_ProbeAbortAndResult (ph : ProbePhase) : Takes 0x35 (rq 0x35 []) (probing ph 7 0) ∧
    (probing ph 7 0).probe.phase = ph ∧ (probing ph 7 0).probe.aborting = false ∧ (probing ph 7 0).probe.noResult = false ∧
    Takes 0x36 (rq 0x36 []) (probing ph 7 0) ∧ (probing ph 7 0).probe.samples.length = 16 :=
  ⟨takes_rq _ _ rfl, rfl, rfl, rfl, takes_rq _ _ rfl, rfl⟩
/-- A finished probe: its record is held. -/
def measured : State :=
  after (exec .observeEnd (probing .observe 7 7))

theorem met_ProbeAbortAndResult_held : measured.probe.phase = .idle ∧ measured.probe.done = true ∧
    measured.probe.result.any (fun r => r.samples.length = 16) = true ∧
    ((live 0).setProbe { Probe.reset with phase := .loadReturn, aborting := true }).probe.aborting = true := by decide +kernel

/-- A PATH probe whose PROBE phase began at tick 0, `n` probes emitted, at tick `t`. -/
def sampling (n : Nat) (t : Tick) : State :=
  (live t).setProbe { Probe.reset with phase := .probe, phaseEnd := some 1280000, emitted := n }

theorem met_ProbePhasesPass :
    ((probing .loadSettle 7 7).probe.phaseEnd = some (probing .loadSettle 7 7).tracker.tick ∧
      0 < ((probing .loadSettle 7 7).par (probing .loadSettle 7 7).probe.carrier).lead) ∧
    ((withPar (fun p => { p with lead := 0 }) (probing .loadSettle 7 7)).par .c1).lead = 0 ∧
    (probing .keyUp 7 7).probe.phaseEnd = some (probing .keyUp 7 7).tracker.tick ∧
    (probing .keyDown 7 7).probe.phaseEnd = some (probing .keyDown 7 7).tracker.tick ∧
    ((sampling 1 80000).probe.phaseEnd = some ((0 : Tick) + BitVec.ofNat 56 1280000) ∧
      (sampling 1 80000).tracker.tick = 0 + BitVec.ofNat 56 (80000 * (sampling 1 80000).probe.emitted)) ∧
    ((sampling 15 1200000).probe.emitted < 16 ∧
      (sampling 15 1200000).tracker.tick = 0 + BitVec.ofNat 56 (80000 * (sampling 15 1200000).probe.emitted)) ∧
    ((sampling 16 1280000).modCar .c1 fun k => { k with key := .probe }).probe.phaseEnd = some 1280000 := by decide +kernel

/-- The hypotheses of ProbeSampled's first part, and the age of the probe. -/
def aged (s : State) (i d : Nat) : Prop :=
  s.probe.phase = .probe ∧ s.probe.phaseEnd = some ((0 : Tick) + BitVec.ofNat 56 1280000) ∧ s.probe.emitted = i + 1 ∧
    s.probe.samples.length = 16 ∧ i < 16 ∧ s.tracker.ref ≠ .noClock ∧
    (s.tracker.tick - (0 + BitVec.ofNat 56 (80000 * i))).toNat = d ∧ s.probe.samples[i]? = some .notTaken

/-- Ages 0, 1, 20,000 and 20,001; sixteen delays at each end of their range; one sample missed. -/
theorem met_ProbeSampled :
    (aged (sampling 1 0) 0 0 ∧ aged (sampling 1 1) 0 1 ∧ aged (sampling 16 1220000) 15 20000 ∧
      aged (sampling 16 1220001) 15 20001) ∧
    (live 0).probe.phase ≠ .probe ∧ lost.tracker.ref = .noClock ∧
    ((List.replicate 16 1).length = 16 ∧ ∀ d ∈ List.replicate 16 1, 1 ≤ d ∧ d ≤ 20000) ∧
    ((List.replicate 16 20000).length = 16 ∧ ∀ d ∈ List.replicate 16 20000, 1 ≤ d ∧ d ≤ 20000) ∧
    (List.replicate 16 Sample.missed).length = 16 ∧ Sample.missed ∈ List.replicate 16 Sample.missed := by
  unfold aged; decide +kernel
/-- LOAD_RETURN with an assessment, aborting, OBSERVE, and with the no-result mark. -/
theorem met_ProbeEnds :
    (let s := (live 7).setProbe { Probe.reset with
      phase := .loadReturn, phaseEnd := some 7, assessment := some { valid := true, mean := some 1838, spread := some 1 } }
     s.probe.phaseEnd = some s.tracker.tick ∧ s.probe.noResult = false ∧ s.probe.aborting = false) ∧
    (let s := (live 7).setProbe { Probe.reset with phase := .loadReturn, phaseEnd := some 7, aborting := true }
     s.probe.phaseEnd = some s.tracker.tick ∧ s.probe.noResult = false ∧ s.probe.aborting = true) ∧
    (probing .observe 7 7).probe.phaseEnd = some (probing .observe 7 7).tracker.tick ∧
    ((live 7).setProbe { Probe.reset with phase := .observe, phaseEnd := some 7, noResult := true }).probe.noResult = true := by
  decide +kernel

/-! ### Witnesses: the Management Unit -/

/-- A LOAD_SITE of all its octets `x`. -/
def loadSite (x : Byte) : RxFrame := rq 0x20 (List.replicate 81 x)

/-- SERVING and not; every parameter at its lower clamp, and above its upper one. -/
theorem met_LoadSiteWrites (x : Byte) : Takes 0x20 (loadSite x) (live 0) ∧ Takes 0x20 (loadSite x) State.reset ∧
    81 ≤ (loadSite x).body.length ∧ (live 0).mgmt.service = .serving ∧ State.reset.mgmt.service ≠ .serving :=
  ⟨takes_rq _ _ rfl, takes_rq _ _ rfl, (show 81 ≤ (List.replicate 81 x).length by simp), rfl, by decide⟩
/-- A lead raised from 20 to 30 ms at tick 100,950,000, slot 1's decision instant under the new one being 100,925,000: slot 1
is passed over, slot 2 is not; every instant lies within the span of the point 100,000,000. -/
theorem met_LoadSiteWrites_raised :
    let s := (live 100950000).setMgmt { (live 100950000).mgmt with service := .configured }
    let z := tickFx 100000000
    s.mgmt.service ≠ .serving ∧ (s.par .c1).lead < 30 ∧ (candidateSlots s).length = 8 ∧
    (∀ sl ∈ candidateSlots s, (slotStart sl - z).toNat < 2 ^ 70) ∧ (s.car .c1).sched.settled = none ∧
    (s.tracker.tick + BitVec.ofNat 56 (30 * 10000 + 25000) - fxTick z).toNat < 2 ^ 54 ∧
    (candidateSlots s).map (fun sl =>
      tickReached s.tracker.tick (fxTick (slotStart sl) - BitVec.ofNat 56 (30 * 10000 + 25000))) =
        [true, false, false, false, false, false, false, false] := by decide +kernel
/-- A lead lowered from 20 ms to 0 where slot 0 of the next cycle is decided. -/
theorem met_LoadSiteWrites_lowered :
    let s := (after (exec (.slotDecision .c1) rollover)).setMgmt { rollover.mgmt with service := .configured }
    s.mgmt.service ≠ .serving ∧ 0 ≤ (s.par .c1).lead ∧ timingAvailable s = true ∧ s.tracker.epoch = some 4003 ∧
    s.tracker.next = some grid1 ∧ ((4003 : EpochNo) + 1).toNat % 4 = 0 ∧
    unsettled .c1 (slotAt 4004 0 grid1) s = false := by decide +kernel
/-- The same where a lead raised from 20 to 120 ms passed that slot over, so that it is never decided. -/
theorem met_LoadSiteWrites_passed :
    let s := (passOver 20 .c1 (withPar (fun p => { p with lead := 120 }) (tuned (fun t => { t with tick := 109000000 }) rollover))).setMgmt
      { (withPar (fun p => { p with lead := 120 }) rollover).mgmt with service := .configured }
    s.mgmt.service ≠ .serving ∧ 120 ≤ (s.par .c1).lead ∧ timingAvailable s = true ∧ s.tracker.epoch = some 4003 ∧
    s.tracker.next = some grid1 ∧ unsettled .c1 (slotAt 4004 0 grid1) s = false ∧ (s.car .c1).sched.openSlots = [] ∧
    unsettled .c1 (slotAt 4004 0 grid1) rollover = true := by decide +kernel
theorem met_EnableServiceJudged : Takes 0x21 (rq 0x21 []) State.reset ∧ State.reset.mgmt.service = .unconfigured ∧
    Takes 0x21 (rq 0x21 []) (live 0) ∧ (live 0).mgmt.service = .serving ∧
    ((live 0).setMgmt { (live 0).mgmt with service := .configured }).mgmt.service = .configured :=
  ⟨takes_rq _ _ rfl, rfl, takes_rq _ _ rfl, rfl, rfl⟩
theorem met_RestartClears : Takes 0x22 (rq 0x22 []) (busy 0) ∧ Scheduled (busy 0) ∧ BlocksAccounted (busy 0) ∧
    ProbeHoldsKey (busy 0) ∧ (busy 0).mgmt.service ≠ .unconfigured :=
  ⟨takes_rq _ _ rfl, busy_scheduled 0, busy_accounted 0, probe_free 0, by decide +kernel⟩
theorem met_RestartClears_unconfigured : Takes 0x22 (rq 0x22 []) State.reset ∧ State.reset.mgmt.service = .unconfigured :=
  ⟨takes_rq _ _ rfl, rfl⟩
theorem met_StatusAndScheduleRead : Takes 0x23 (rq 0x23 []) (busy 0) ∧ Takes 0x2D (rq 0x2D [1]) (busy 0) ∧
    1 ≤ (rq 0x2D [1]).body.length ∧ carrierOf (field (rq 0x2D [1]).body 0 1) = some .c1 ∧
    carrierOf (field (rq 0x2D [4]).body 0 1) = some .c4 ∧ field (rq 0x2D [0]).body 0 1 = 0 ∧ 4 < field (rq 0x2D [5]).body 0 1 :=
  ⟨takes_rq _ _ rfl, takes_rq _ _ rfl, by decide +kernel⟩
theorem met_CountersAndAlarmsCleared : Takes 0x24 (rq 0x24 []) (live 0) ∧ Takes 0x25 (rq 0x25 [0, 0, 0, 0xFF]) (live 0) ∧
    4 ≤ (rq 0x25 [0, 0, 0, 0xFF]).body.length := ⟨takes_rq _ _ rfl, takes_rq _ _ rfl, by decide⟩

end Sys2Proof.Tests
end

section
/-! Proofs about file 02: rounding, the launch offset and the symbol step, the slot grid, the instants of a run (O36). -/

namespace Sys2Proof.Machine

/-! ### Rounding and clamping -/

/-- For `0 < d`, `roundUp n d` is the one number within half of `n / d`, the half above included. -/
theorem roundUp_bracket (n : Nat) {d : Nat} (hd : 0 < d) :
    2 * roundUp n d * d ≤ 2 * n + d ∧ 2 * n < 2 * roundUp n d * d + d := by
  have hle := Nat.div_mul_le_self (2 * n + d) (2 * d)
  have hlt := Nat.lt_mul_div_succ (2 * n + d) (show 0 < 2 * d by omega)
  unfold roundUp
  constructor <;> linarith

theorem roundUp_pos {n d : Nat} (hd : 0 < d) (h : d ≤ n) : 0 < roundUp n d :=
  Nat.div_pos (by omega) (by omega)

theorem roundAway_neg (n : Int) (d : Nat) : roundAway (-n) d = -roundAway n d := by
  simp [roundAway]

theorem roundAway_natCast (n : Nat) {d : Nat} (hd : 0 < d) : roundAway n d = roundUp n d := by
  rcases Nat.eq_zero_or_pos n with rfl | hn
  · have hz : d / (2 * d) = 0 := Nat.div_eq_of_lt (by omega)
    simp [roundAway, roundUp, hz]
  · simp [roundAway, roundUp, Int.sign_natCast_of_ne_zero hn.ne']

theorem clampInt_eq_max_min {lo hi : Int} (h : lo ≤ hi) (x : Int) : clampInt lo hi x = max lo (min hi x) := by
  unfold clampInt
  split_ifs <;> omega

/-! ### The launch offset in sub-ticks (R27, R28) -/

theorem launchOffset_eq (raw : Int) : launchOffset raw = max (-2500000) (min 2500000 raw) :=
  clampInt_eq_max_min (by decide) raw

theorem offsetFx_neg (l : Int) : offsetFx (-l) = -offsetFx l := by
  rw [offsetFx, Int.neg_mul, roundAway_neg, offsetFx]

theorem offsetFx_natCast (n : Nat) : offsetFx n = roundUp (n * 65536) 100 := by
  rw [← roundAway_natCast _ (by decide), Int.natCast_mul]
  rfl

/-- No half arises: 65536 × L is a multiple of 4, and an odd multiple of 50 is not. Offsets below 0 mirror those above. -/
theorem offsetFx_nearest (l : Int) : -50 < 100 * offsetFx l - l * 65536 ∧ 100 * offsetFx l - l * 65536 < 50 := by
  have above (n : Nat) : -50 < 100 * offsetFx n - n * 65536 ∧ 100 * offsetFx n - n * 65536 < 50 := by
    obtain ⟨hle, hlt⟩ := roundUp_bracket (n * 65536) (d := 100) (by decide)
    rw [offsetFx_natCast]
    omega
  obtain ⟨n, rfl | rfl⟩ := l.eq_nat_or_neg
  · exact above n
  · obtain ⟨hlo, hhi⟩ := above n
    rw [offsetFx_neg]
    omega

theorem offsetFx_bounds {l : Int} (hlo : -2500000 ≤ l) (hhi : l ≤ 2500000) :
    -1638400000 ≤ offsetFx l ∧ offsetFx l ≤ 1638400000 := by
  obtain ⟨hgt, hlt⟩ := offsetFx_nearest l
  omega

/-- Where 65536 × L is a multiple of 100, Lfx is the quotient. -/
theorem offsetFx_exact {l q : Int} (h : l * 65536 = 100 * q) : offsetFx l = q := by
  obtain ⟨hgt, hlt⟩ := offsetFx_nearest l
  omega

/-! ### The symbol step (R29) -/

theorem RateClass.perSecond_bounds (r : RateClass) : 0 < r.perSecond ∧ r.perSecond ≤ 4000 := by
  cases r <;> decide

/-- No half arises: Sum8 × 16384 is a multiple of 64, and an odd multiple of 1000, 2000 or 4000 is not. -/
theorem symbolStep_nearest (sum8 : Nat) (r : RateClass) :
    2 * symbolStep sum8 r.perSecond * r.perSecond < 2 * (sum8 * 8192) + r.perSecond ∧
    2 * (sum8 * 8192) < 2 * symbolStep sum8 r.perSecond * r.perSecond + r.perSecond := by
  obtain ⟨hle, hlt⟩ := roundUp_bracket (sum8 * 8192) r.perSecond_bounds.1
  have noHalf : 2 * symbolStep sum8 r.perSecond * r.perSecond ≠ 2 * (sum8 * 8192) + r.perSecond := by
    cases r <;> simp only [RateClass.perSecond] <;> omega
  exact ⟨lt_of_le_of_ne hle noHalf, hlt⟩

theorem symbolStep_pos {sum8 : Nat} (h : 79992000 ≤ sum8) (r : RateClass) : 0 < symbolStep sum8 r.perSecond :=
  roundUp_pos r.perSecond_bounds.1 (by have := r.perSecond_bounds.2; omega)

/-- Each of 480 steps is off by less than half a sub-tick, their sum by less than 240 sub-ticks. -/
theorem symbolStep_drift (sum8 : Nat) (r : RateClass) :
    480 * symbolStep sum8 r.perSecond * r.perSecond < 480 * (sum8 * 8192) + 65536 * r.perSecond ∧
    480 * (sum8 * 8192) < 480 * symbolStep sum8 r.perSecond * r.perSecond + 65536 * r.perSecond := by
  obtain ⟨hlt, hgt⟩ := symbolStep_nearest sum8 r
  constructor <;> linarith

/-- Where R divides Sum8 × 8192, Tfx is the quotient. -/
theorem symbolStep_exact {sum8 q : Nat} (r : RateClass) (h : sum8 * 8192 = q * r.perSecond) :
    symbolStep sum8 r.perSecond = q := by
  obtain ⟨hlt, hgt⟩ := symbolStep_nearest sum8 r
  cases r <;> simp only [RateClass.perSecond] at * <;> omega

/-! ### Ticks and the slot grid (R1, R24) -/

theorem toNat_fxTick (x : Fx) : (fxTick x).toNat = x.toNat / 65536 := by
  have hx := x.isLt
  rw [fxTick, BitVec.toNat_ofNat, Nat.mod_eq_of_lt (by omega)]

theorem fxAdd_natCast (t : Fx) (n : Nat) : fxAdd t n = t + BitVec.ofNat 72 n := by
  rw [fxAdd, BitVec.ofInt_natCast]

theorem gridStart_eq (g : Grid) (p : Nat) : gridStart g p = g.pred + BitVec.ofNat 72 (p * (g.sum8 * 1024)) :=
  fxAdd_natCast ..

theorem slotEndTick_before_last (t : Tracker) {sl : SlotRef} (h : sl.pos.val < 7) :
    slotEndTick t sl = some (fxTick (gridStart sl.grid (sl.pos.val + 1))) := if_pos h

/-- The next epoch is the Tracker's next one while the slot's own epoch is current, and the current one after that. -/
theorem slotEndTick_last (t : Tracker) {sl : SlotRef} (h : sl.pos = 7) :
    slotEndTick t sl = if t.current = some sl.grid then t.next.map fun g => fxTick g.pred
      else t.current.map fun g => fxTick g.pred :=
  if_neg (by rw [h]; decide)

/-! ### The instants of a run (R26, R30, R31) -/

theorem formRun_launch (c : Carrier) (sl : SlotRef) (g : Fin 16) (rate : RateClass) (content : RunContent) (s : State) :
    (formRun c sl g rate content s).launch =
      slotStart sl + BitVec.ofInt 72 (offsetFx (max (-2500000) (min 2500000
        (((s.align.active.records.get c).rows.get g).offset - ((s.align.delays.get c).value : Int))))) := by
  rw [← launchOffset_eq]
  rfl

theorem Run.payloadEnd_eq (r : Run) : r.payloadEnd = fxTick (r.launch + BitVec.ofNat 72 (r.symbols * r.tfx)) := by
  rw [Run.payloadEnd, Run.instant, fxAdd_natCast]

/-- Settles O36. The four parts are the offset (R28), the step (R29), the slot grid (R24) and the run formed from them (R31). -/
theorem launchArithmetic : Obligations.LaunchArithmetic := by
  unfold Obligations.LaunchArithmetic
  refine ⟨fun l hlo hhi => ?offset, offsetFx_exact rfl, offsetFx_exact rfl, fun sum8 r hlo _ => ?step,
    ⟨symbolStep_exact .a rfl, symbolStep_exact .b rfl, symbolStep_exact .c rfl⟩,
    fun c sl g rate content s => ⟨formRun_launch c sl g rate content s, rfl, ?symbols⟩, toNat_fxTick,
    fun sl => gridStart_eq sl.grid sl.pos.val, fun t sl => ⟨fun h => ?within, fun h hc => ?lastCurrent, fun h hc => ?lastPassed⟩,
    Run.payloadEnd_eq⟩
  case offset =>
    obtain ⟨hgt, hlt⟩ := offsetFx_nearest l
    exact ⟨hgt, hlt, offsetFx_bounds hlo hhi⟩
  case step =>
    obtain ⟨hlt, hgt⟩ := symbolStep_nearest sum8 r
    exact ⟨hlt, hgt, symbolStep_pos hlo r, symbolStep_drift sum8 r⟩
  case symbols => cases rate <;> rfl
  case within => rw [slotEndTick_before_last t h, gridStart_eq]
  case lastCurrent => rw [slotEndTick_last t h, if_pos hc]
  case lastPassed => rw [slotEndTick_last t h, if_neg hc]

end Sys2Proof.Machine
end

section
/-! Proofs about file 03: the checks of LOAD_ALIGN, what a load confines and writes, its reply (O27). -/

namespace Sys2Proof.Machine

open Sys2Proof.Safety

/-! ### Carrier octets and clamping -/

theorem carrierOf_eq_none_iff (n : Nat) : carrierOf n = none ↔ ¬ (1 ≤ n ∧ n ≤ 4) := by
  match n with
  | 0 | 1 | 2 | 3 | 4 => simp [carrierOf]
  | n + 5 => simp [carrierOf]

theorem clampInt_eq_self_iff {lo hi : Int} (h : lo ≤ hi) (x : Int) : clampInt lo hi x = x ↔ lo ≤ x ∧ x ≤ hi := by
  rw [clampInt_eq_max_min h]
  omega

theorem confineGain_eq (x : Int) : confineGain x = max 0 (min 65535 x) := clampInt_eq_max_min (by decide) x

theorem confineCentre_eq (x : Int) : confineCentre x = max (-16384) (min 16383 x) := clampInt_eq_max_min (by decide) x

theorem confineOffset_eq (x : Int) : confineOffset x = max (-2500000) (min 2500000 x) :=
  clampInt_eq_max_min (by decide) x

/-! ### The record a load writes, and whether it clamps (R44) -/

theorem loadedRecord_gain (body : List Byte) (first count : Nat) (r : CarrierRecord) :
    ((loadedRecord body first count r).gain.toNat : Int) = max 0 (min 65535 (signedField body 1)) := by
  rw [loadedRecord, confineGain_eq, BitVec.toNat_ofInt]
  omega

theorem writeRows_get (body : List Byte) (first count : Nat) (rows : Vector GroupRow 16) (j : Fin 16) :
    (writeRows body first count rows).get j =
      if first ≤ j.val ∧ j.val < first + count then
        { enabled := (carriedRow body (j.val - first)).1, offset := confineOffset (carriedRow body (j.val - first)).2 }
      else rows.get j := by
  simp [writeRows, Vector.get_eq_getElem]

/-- A load clamps nothing exactly when G, C and every offset it carries lie in their ranges. -/
theorem loadClamped_eq_false_iff (body : List Byte) (count : Nat) :
    loadClamped body count = false ↔
      (0 ≤ signedField body 1 ∧ signedField body 1 ≤ 65535) ∧
      (-16384 ≤ signedField body 5 ∧ signedField body 5 ≤ 16383) ∧
      ∀ i < count, -2500000 ≤ signedField body (12 + 5 * i) ∧ signedField body (12 + 5 * i) ≤ 2500000 := by
  simp [loadClamped, confineGain, confineCentre, confineOffset, Config.offsetLimit, carriedRow, clampInt_eq_self_iff,
    and_assoc]

/-! ### The checks of LOAD_ALIGN in order (R43) -/

/-- What checks 1 and 2 of R43 ask of a load's rows: at least one, none past group 15, and as many as the count says. -/
def RowsFit (body : List Byte) : Prop :=
  1 ≤ field body 10 1 ∧ field body 9 1 + field body 10 1 ≤ 16 ∧ rowsCarried body = field body 10 1

/-- The row checks as `ownerLoadAlign` makes them; check 1's own bounds on first group and count follow from their sum. -/
theorem rowsFit_iff (body : List Byte) :
    RowsFit body ↔ (1 ≤ field body 10 1 && field body 10 1 ≤ 16 && field body 9 1 ≤ 15 &&
      rowsCarried body = field body 10 1) = true ∧ ¬ 16 < field body 9 1 + field body 10 1 := by
  simp only [RowsFit, Bool.and_eq_true, decide_eq_true_eq]
  omega

/-- The staged bank of `a` once the load `body` for carrier `c` is written. -/
def stagedAfter (body : List Byte) (c : Carrier) (a : Align) : Bank :=
  { a.staged with records :=
      a.staged.records.set c (loadedRecord body (field body 9 1) (field body 10 1) (a.staged.records.get c)) }

theorem ownerLoadAlign_no_carrier {body : List Byte} (hc : carrierOf (field body 0 1) = none) (s : State) :
    ownerLoadAlign body s = Answer.refuse .badArgument s := by
  simp only [ownerLoadAlign, hc]

theorem ownerLoadAlign_rows_unfit {body : List Byte} (hr : ¬ RowsFit body) (s : State) :
    ownerLoadAlign body s = Answer.refuse .badArgument s := by
  rw [rowsFit_iff, not_and_or, not_not, Bool.not_eq_true] at hr
  unfold ownerLoadAlign
  cases carrierOf (field body 0 1) with
  | none => rfl
  | some c =>
    obtain hcheck | hpast := hr
    · simp only [hcheck, Bool.not_false, if_true]
    · simp only [hpast, if_true, ite_self]

/-- Past the carrier check and the row checks, only a pending switch stops a load. -/
theorem ownerLoadAlign_rows_fit {body : List Byte} {c : Carrier} (hc : carrierOf (field body 0 1) = some c)
    (hr : RowsFit body) (s : State) :
    ownerLoadAlign body s =
      if s.align.pending.isSome then Answer.refuse .stagedLocked s
      else { code := if loadClamped body (field body 10 1) then .clamped else .ok, content := []
             state := s.setAlign { s.align with staged := stagedAfter body c s.align } } := by
  obtain ⟨hcheck, hpast⟩ := (rowsFit_iff body).1 hr
  simp only [ownerLoadAlign, hc, hcheck, hpast]
  rfl

/-! ### LOAD_ALIGN -/

/-- A taken LOAD_ALIGN of its layout's length gets the reply its owner answers (R157, R165). -/
theorem exec_loadAlign {f : RxFrame} {s : State} (h : Takes 0x28 f s) (hl : 11 ≤ f.body.length) {a : Answer}
    (ha : ownerLoadAlign f.body (requested 0x28 f s) = a) :
    exec (.loadAlign f) s = .next (replied 0x28 f (replyOctet a.code) a.content a.state) :=
  congrArg Host.Outcome.next (takeRequest_owner h hl ownerLoadAlign ha)

/-- A load that passes every check writes its carrier's staged record; the reply says whether it clamped (R44). -/
theorem exec_loadAlign_taken {f : RxFrame} {s : State} {c : Carrier} (h : Takes 0x28 f s) (hl : 11 ≤ f.body.length)
    (hc : carrierOf (field f.body 0 1) = some c) (hr : RowsFit f.body) (hp : s.align.pending = none) :
    exec (.loadAlign f) s =
      .next (replied 0x28 f (replyOctet (if loadClamped f.body (field f.body 10 1) then .clamped else .ok)) []
        ((requested 0x28 f s).setAlign { s.align with staged := stagedAfter f.body c s.align })) := by
  have ha := ownerLoadAlign_rows_fit hc hr (requested 0x28 f s)
  rw [if_neg (by simp [hp])] at ha
  exact exec_loadAlign h hl ha

/-- The carrier check fails or the rows do not fit (R43). -/
theorem exec_loadAlign_badArgument {f : RxFrame} {s : State} (h : Takes 0x28 f s) (hl : 11 ≤ f.body.length)
    (hbad : carrierOf (field f.body 0 1) = none ∨ ¬ RowsFit f.body) :
    exec (.loadAlign f) s = .next (replied 0x28 f 0x02 [] (requested 0x28 f s)) := by
  obtain hc | hr := hbad
  · exact exec_loadAlign h hl (ownerLoadAlign_no_carrier hc _)
  · exact exec_loadAlign h hl (ownerLoadAlign_rows_unfit hr _)

/-- Checks 1 and 2 pass, and a switch is pending (R43). -/
theorem exec_loadAlign_stagedLocked {f : RxFrame} {s : State} {c : Carrier} (h : Takes 0x28 f s)
    (hl : 11 ≤ f.body.length) (hc : carrierOf (field f.body 0 1) = some c) (hr : RowsFit f.body)
    (hp : s.align.pending.isSome = true) :
    exec (.loadAlign f) s = .next (replied 0x28 f 0x06 [] (requested 0x28 f s)) := by
  have ha := ownerLoadAlign_rows_fit hc hr (requested 0x28 f s)
  rw [if_pos (by simp [hp])] at ha
  exact exec_loadAlign h hl ha

theorem replyOctet_ok_or_clamped (b : Bool) :
    (replyOctet (if b then .clamped else .ok) = 0x00 ∨ replyOctet (if b then .clamped else .ok) = 0x01) ∧
      (replyOctet (if b then .clamped else .ok) = 0x00 ↔ b = false) := by
  cases b <;> decide

/-- Settles O27. A load that passes writes `loadedRecord` (R44); a refused one fails the carrier check or a row check
(BAD_ARGUMENT), or else the pending-switch check (STAGED_LOCKED) (R43). -/
theorem loadAlignJudged : Obligations.LoadAlignJudged := by
  unfold Obligations.LoadAlignJudged
  refine ⟨?taken, fun f s h hl => ⟨fun hbad => ?badArgument, fun hgood hp => ?stagedLocked⟩⟩
  case taken =>
    rintro f s c _ _ h hl hc rfl rfl hone hsum hcount hp
    obtain ⟨hcode, hok⟩ := replyOctet_ok_or_clamped (loadClamped f.body (field f.body 10 1))
    refine ⟨_, _, exec_loadAlign_taken h hl hc ⟨hone, hsum, hcount⟩ hp, loadedRecord_gain .., confineCentre_eq _,
      fun j => ⟨fun hin => ?written, fun hout => ?kept⟩, hcode, hok.trans (loadClamped_eq_false_iff ..)⟩
    case written =>
      rw [loadedRecord, writeRows_get, if_pos hin]
      exact ⟨rfl, confineOffset_eq _⟩
    case kept =>
      have hnot : ¬ (field f.body 9 1 ≤ j.val ∧ j.val < field f.body 9 1 + field f.body 10 1) := by omega
      rw [loadedRecord, writeRows_get, if_neg hnot]
  case badArgument =>
    refine exec_loadAlign_badArgument h hl ?_
    rw [carrierOf_eq_none_iff]
    exact not_and_or.1 hbad
  case stagedLocked =>
    obtain ⟨hcarrier, hrows⟩ := hgood
    obtain ⟨c, hc⟩ := Option.ne_none_iff_exists'.1 fun hnone => (carrierOf_eq_none_iff _).1 hnone hcarrier
    exact exec_loadAlign_stagedLocked h hl hc hrows hp

end Sys2Proof.Machine
end

section
/-! Proofs about file 04: the five cases of a block frame, the store block it takes, the completion of a batch (O34). -/

namespace Sys2Proof.Machine

open Sys2Proof.Safety

/-! ### What a block frame is judged by (R70, R71) -/

theorem Batch.holds_eq_false_iff (b : Batch) (i : Nat) : b.holds i = false ↔ b.blocks.getD i none = none := by
  simp [Batch.holds]

theorem Batch.holdsAbove_iff (b : Batch) (i : Nat) :
    b.holdsAbove i = true ↔ ∃ j, i < j ∧ (b.blocks.getD j none).isSome = true := by
  unfold Batch.holdsAbove
  rw [List.any_eq_true]
  constructor
  · rintro ⟨x, hx, hsome⟩
    obtain ⟨d, hd⟩ := List.mem_iff_getElem?.1 hx
    rw [List.getElem?_drop] at hd
    exact ⟨i + 1 + d, by omega, by rwa [List.getD_eq_getElem?_getD, hd]⟩
  · rintro ⟨j, hj, hsome⟩
    rw [List.getD_eq_getElem?_getD] at hsome
    cases h : b.blocks[j]? with
    | none => simp [h] at hsome
    | some x =>
      rw [h] at hsome
      refine ⟨x, List.mem_iff_getElem?.2 ⟨j - (i + 1), ?_⟩, hsome⟩
      rw [List.getElem?_drop, Nat.add_sub_cancel' hj, h]

/-- The four grounds of R70's second case: past the block list, against the last index, a bad valid count, a LAST below a held
position. -/
theorem blockMalformed_iff (b : Batch) (k : BlockFrame) :
    blockMalformed b k = true ↔
      b.slots * b.rate.blocks ≤ k.index ∨
      (∃ l, b.last = some l ∧ (l.index < k.index ∨ (k.last = true ∧ k.index ≠ l.index))) ∨
      (k.last = true ∧ (k.valid < 1 ∨ 40 < k.valid)) ∨
      (k.last = true ∧ ∃ i, k.index < i ∧ (b.blocks.getD i none).isSome = true) := by
  have hvalid : (!validCount k.valid) = true ↔ k.valid < 1 ∨ 40 < k.valid := by
    simp [validCount]
  simp only [blockMalformed, Bool.or_eq_true, Bool.and_eq_true, decide_eq_true_eq, hvalid, Batch.holdsAbove_iff, or_assoc]
  cases b.last <;> simp

theorem recordLast_eq (k : BlockFrame) (b : Batch) :
    recordLast k b = { b with
      last := if k.last = true ∧ b.last = none then some { index := k.index, count := k.valid } else b.last } := by
  unfold recordLast
  by_cases h : k.last = true ∧ b.last = none
  · rw [if_pos h, if_pos (by simp [h])]
  · rw [if_neg h, if_neg (by simpa using h)]

@[simp] theorem recordLast_id (k : BlockFrame) (b : Batch) : (recordLast k b).id = b.id := by
  rw [recordLast_eq]

/-! ### Completion (R73) -/

theorem Batch.filled_iff (b : Batch) :
    b.filled = true ↔ ∃ l, b.last = some l ∧ ∀ i ≤ l.index, (b.blocks.getD i none).isSome = true := by
  unfold Batch.filled
  cases b.last <;> simp

theorem complete_of_filled (now : Tick) {b : Batch} (hp : b.state = .pending) (hf : b.filled = true) :
    complete now b = { b with state := .complete, completion := some now } :=
  if_pos (by simp [hp, hf])

theorem complete_of_not_filled (now : Tick) {b : Batch} (h : ¬ (b.state = .pending ∧ b.filled = true)) :
    complete now b = b :=
  if_neg (by simpa using h)

@[simp] theorem complete_id (now : Tick) (b : Batch) : (complete now b).id = b.id := by
  unfold complete
  split <;> rfl

/-! ### The record changed and the store block taken (R70, R80, R81) -/

/-- Two changes that agree on the record found under an id change a table without equal ids alike. -/
theorem modBatch_congr {s : State} (ho : TableOrdered s) {id : BatchId} {b : Batch} (hb : findBatch id s = some b)
    {f g : Batch → Batch} (hfg : f b = g b) : modBatch id f s = modBatch id g s := by
  unfold modBatch
  congr 1
  refine List.map_congr_left fun x hx => ?_
  by_cases hid : x.id = id
  · have hx : findBatch id s = some x := hid ▸ findBatch_of_mem ho hx
    obtain rfl : b = x := Option.some.inj (hb.symm.trans hx)
    rw [if_pos hid, if_pos hid, hfg]
  · rw [if_neg hid, if_neg hid]

theorem lowestFree_eq_none {s : State} (hw : StoreCanonical s) (h : ∀ n < 2048, (readBlock n s).tag ≠ .free) :
    lowestFree s.store.cells 0 = none := by
  have hspec := lowestFree_spec (n := 0) hw fun _ _ => Nat.zero_le _
  cases hn : lowestFree s.store.cells 0 with
  | none => rfl
  | some m =>
    rw [hn] at hspec
    obtain ⟨-, hlt, hfree, -⟩ := hspec
    exact absurd hfree (h m hlt)

theorem lowestFree_eq_some {s : State} (hw : StoreCanonical s) {n : Nat} (hn : n < 2048) (hfree : (readBlock n s).tag = .free)
    (hbelow : ∀ j < n, (readBlock j s).tag ≠ .free) : lowestFree s.store.cells 0 = some n := by
  have hspec := lowestFree_spec (n := 0) hw fun _ _ => Nat.zero_le _
  cases hm : lowestFree s.store.cells 0 with
  | none =>
    rw [hm] at hspec
    exact absurd hfree (hspec n (Nat.zero_le n) hn)
  | some m =>
    rw [hm] at hspec
    obtain ⟨-, -, hmfree, hmbelow⟩ := hspec
    have hle : n ≤ m := Nat.not_lt.1 fun hlt => hbelow m hlt hmfree
    have hge : m ≤ n := Nat.not_lt.1 fun hlt => hmbelow n (Nat.zero_le n) hlt hfree
    rw [Nat.le_antisymm hle hge]

theorem allocate_eq_setStore (n : Nat) (id : BatchId) (i : Nat) (codes : BitVec 80) (s : State) :
    allocate n id i codes s = s.setStore (allocate n id i codes s).store := by
  unfold allocate writeBlock
  split <;> rfl

/-- The free count and STORE_LOW after a block is taken (R81). -/
theorem allocate_counts (n : Nat) (id : BatchId) (i : Nat) (codes : BitVec 80) (s : State) :
    (allocate n id i codes s).store.freeCount = s.store.freeCount - 1 ∧
      (allocate n id i codes s).store.low =
        storeLowFlag s.mgmt.params.storeLow s.mgmt.params.storeHigh (s.store.freeCount - 1) s.store.low := by
  unfold allocate writeBlock
  split <;> exact ⟨rfl, rfl⟩

/-- The taking of a block touches the store and the table alone. -/
theorem modBatch_allocate_eq (n : Nat) (id : BatchId) (i : Nat) (codes : BitVec 80) (g : Batch → Batch) (s : State) :
    modBatch id g (allocate n id i codes s) =
      (s.setStore (allocate n id i codes s).store).setBatches (modBatch id g (allocate n id i codes s)).batches := by
  conv => lhs; rw [allocate_eq_setStore]
  unfold modBatch
  rw [(allocate_keeps n id i codes s).2.2.1]
  rfl

theorem findBatch_modBatch_allocate (n : Nat) {id : BatchId} (i : Nat) (codes : BitVec 80) {g : Batch → Batch}
    (hg : ∀ b, (g b).id = b.id) (s : State) (x : BatchId) :
    findBatch x (modBatch id g (allocate n id i codes s)) =
      if x = id then (findBatch x s).map g else findBatch x s := by
  obtain ⟨-, -, hbatches, -⟩ := allocate_keeps n id i codes s
  rw [findBatch_modBatch hg, findBatch_congr hbatches]

/-! ### BATCH_BLOCK by case (R70) -/

theorem exec_batchBlock {f : RxFrame} {s : State} (h : Takes 0x03 f s) (hl : f.body.length = 15) :
    exec (.batchBlock f) s = .next (ownerBlock f.body (carried .batchBlock 0x03 f s)) := by
  have hrun := takeTraffic_owner (k := .batchBlock) (len := 15) h ownerBlock
  rw [if_pos hl] at hrun
  exact congrArg _ hrun

section
variable {body : List Byte} {s : State} {b : Batch}

theorem ownerBlock_orphan (hb : findBatch (blockFrame body).id s = none) :
    ownerBlock body s = countUnmatched .batchBlock s := by
  simp only [ownerBlock, hb]

theorem ownerBlock_malformed (hb : findBatch (blockFrame body).id s = some b)
    (hm : blockMalformed b (blockFrame body) = true) :
    ownerBlock body s =
      countDiscard b.carrier (modBatch (blockFrame body).id (fun x => { x with malformed := true }) s) := by
  simp only [ownerBlock, hb, if_pos hm]

theorem ownerBlock_duplicate (hb : findBatch (blockFrame body).id s = some b)
    (hm : ¬ blockMalformed b (blockFrame body) = true) (hh : b.holds (blockFrame body).index = true) :
    ownerBlock body s = countDiscard b.carrier (modBatch (blockFrame body).id
      (fun x => complete s.now (recordLast (blockFrame body) x)) s) := by
  simp only [ownerBlock, hb, if_neg hm, if_pos hh]

theorem ownerBlock_full (hb : findBatch (blockFrame body).id s = some b)
    (hm : ¬ blockMalformed b (blockFrame body) = true) (hh : b.holds (blockFrame body).index = false)
    (hfull : lowestFree s.store.cells 0 = none) :
    ownerBlock body s =
      countDiscard b.carrier (modBatch (blockFrame body).id (fun x => { x with starved := true }) s) := by
  simp only [ownerBlock, hb, if_neg hm, hh, hfull, Bool.false_eq_true, if_false]

theorem ownerBlock_taken (hb : findBatch (blockFrame body).id s = some b)
    (hm : ¬ blockMalformed b (blockFrame body) = true) (hh : b.holds (blockFrame body).index = false) {n : Nat}
    (hn : lowestFree s.store.cells 0 = some n) :
    ownerBlock body s = modBatch (blockFrame body).id
      (fun x => complete s.now (recordLast (blockFrame body)
        { x with blocks := x.blocks.set (blockFrame body).index (some n) }))
      (allocate n (blockFrame body).id (blockFrame body).index (blockFrame body).codes s) := by
  simp only [ownerBlock, hb, if_neg hm, hh, hn, Bool.false_eq_true, if_false]

end

/-- Settles O34. The first part goes by the case lemmas of `ownerBlock`, the second by `Batch.filled_iff`. -/
theorem blockByCase : Obligations.BlockByCase := by
  unfold Obligations.BlockByCase
  refine ⟨fun f s h hl hw ho => ?frame, fun now b => ⟨fun l hp hlast hheld => ?completes, fun h => ?stands⟩⟩
  case frame =>
    intro k u
    rw [exec_batchBlock h hl]
    refine ⟨fun hnone => congrArg _ (ownerBlock_orphan hnone), fun b hb => ?_⟩
    have hbu : findBatch k.id u = some b := hb
    intro malformed last
    rw [show malformed ↔ blockMalformed b k = true from (blockMalformed_iff b k).symm]
    refine ⟨fun hm => ?malformed, fun hm hheld => ?duplicate, fun hm hempty hfull => ?full,
      fun n hm hempty hn hfree hbelow => ?taken⟩
    case malformed => rw [ownerBlock_malformed hbu hm]
    case duplicate =>
      have hlast : modBatch k.id (fun x => complete u.now (recordLast k x)) u =
          modBatch k.id (fun x => complete u.now { x with last := last }) u :=
        modBatch_congr (s := u) ho hbu (by rw [recordLast_eq])
      rw [ownerBlock_duplicate hbu hm hheld, hlast]
      rfl
    case full =>
      rw [ownerBlock_full hbu hm ((b.holds_eq_false_iff k.index).2 hempty) (lowestFree_eq_none (s := u) hw hfull)]
    case taken =>
      rw [ownerBlock_taken hbu hm ((b.holds_eq_false_iff k.index).2 hempty) (lowestFree_eq_some (s := u) hw hn hfree hbelow)]
      obtain ⟨hcount, hlow⟩ := allocate_counts n k.id k.index k.codes u
      have hread (j : Nat) := readBlock_allocate (s := u) hw hn j k.id k.index k.codes
      have hfind (id : BatchId) := findBatch_modBatch_allocate n (id := k.id) k.index k.codes
        (g := fun x => complete u.now (recordLast k { x with blocks := x.blocks.set k.index (some n) }))
        (fun x => by simp) u id
      refine ⟨_, rfl, modBatch_allocate_eq .., (hread n).trans (if_pos rfl), fun j hj => (hread j).trans (if_neg hj),
        hcount, hlow, ?_, fun id hid => (hfind id).trans (if_neg hid)⟩
      rw [hfind, if_pos rfl, hbu, Option.map_some, recordLast_eq]
      rfl
  case completes =>
    exact complete_of_filled now hp (b.filled_iff.2 ⟨l, hlast, hheld⟩)
  case stands =>
    refine complete_of_not_filled now fun ⟨hp, hf⟩ => ?_
    obtain ⟨l, hlast, hheld⟩ := b.filled_iff.1 hf
    obtain hstate | hnone | ⟨m, i, hm, hi, hempty⟩ := h
    · exact hstate hp
    · simp [hnone] at hlast
    · obtain rfl : l = m := Option.some.inj (hlast.symm.trans hm)
      exact absurd (hheld i hi) (by simp only [hempty]; decide)

end Sys2Proof.Machine
end

section
/-! Proofs about file 07: the guard test armed, a marker sequence cleared, a marker load judged (O49). -/

namespace Sys2Proof.Machine

open Sys2Proof.Safety

/-! ### Octets and bits of a body -/

theorem carrierOf_outside {n : Nat} (h : n = 0 ∨ 4 < n) : carrierOf n = none :=
  (carrierOf_eq_none_iff n).2 (by omega)

theorem octets_one (n : Nat) : octets 1 n = [BitVec.ofNat 8 n] := by
  simp [octets]

theorem length_bitsOf (bs : List Byte) : (bitsOf bs).length = 8 * bs.length := by
  simp [bitsOf, List.length_flatMap, Nat.mul_comm]

/-- The `i`-th bit stands in octet `i / 8`, bit 7 first. -/
theorem getElem?_bitsOf (bs : List Byte) (i : Nat) (h : i < 8 * bs.length) :
    (bitsOf bs)[i]? = some ((bs.getD (i / 8) 0).getLsbD (7 - i % 8)) := by
  induction bs generalizing i with
  | nil => simp at h
  | cons b bs ih =>
    match i with
    | 0 | 1 | 2 | 3 | 4 | 5 | 6 | 7 => rfl
    | i + 8 =>
      have hi : i < 8 * bs.length := by
        rw [List.length_cons] at h
        omega
      calc (bitsOf (b :: bs))[i + 8]?
        _ = (bitsOf bs)[i]? := rfl
        _ = some ((bs.getD (i / 8) 0).getLsbD (7 - i % 8)) := ih i hi
        _ = some (((b :: bs).getD ((i + 8) / 8) 0).getLsbD (7 - (i + 8) % 8)) := by
          rw [Nat.add_div_right i (by decide), Nat.add_mod_right, List.getD_cons_succ]

theorem length_carriedBits (body : List Byte) : (carriedBits body).length = 8 * (body.length - 2) := by
  rw [carriedBits, length_bitsOf, List.length_drop]

theorem getElem?_carriedBits {body : List Byte} {i : Nat} (h : i < 8 * (body.length - 2)) :
    (carriedBits body)[i]? = some ((body.getD (2 + i / 8) 0).getLsbD (7 - i % 8)) := by
  rw [carriedBits, getElem?_bitsOf _ _ (by rwa [List.length_drop]), List.getD_eq_getElem?_getD, List.getElem?_drop,
    ← List.getD_eq_getElem?_getD]

/-! ### A wake trigger (R122) -/

/-- The power state after a wake trigger at tick `now`, of a carrier whose wake parameter is `wake`. -/
def wokenPower (now : Tick) (wake : Nat) (p : PowerState) : PowerState :=
  if p = .standby then (if wake = 0 then .active else .awakening (tickAdd now (wake * Config.wakeUnit))) else p

theorem wakeTrigger_eq (c : Carrier) (s : State) :
    wakeTrigger c s = s.setCar c { s.car c with power := wokenPower s.now (s.par c).wake (s.car c).power } := by
  unfold wakeTrigger wokenPower
  split
  · rfl
  · exact (s.setCar_self c).symm

/-! ### The checks of MARKER_LOAD in order (R131) -/

/-- What check 1 of R131 asks of a load's length: 1 to 64, and no more than the bits the body carries. -/
def MarkerFits (body : List Byte) : Prop :=
  1 ≤ field body 1 1 ∧ field body 1 1 ≤ 64 ∧ field body 1 1 ≤ 8 * (body.length - 2)

/-- The length check as `ownerMarkerLoad` makes it. -/
theorem markerFits_iff (body : List Byte) :
    MarkerFits body ↔ (1 ≤ field body 1 1 && field body 1 1 ≤ 64 && field body 1 1 ≤ (carriedBits body).length) = true := by
  simp only [MarkerFits, length_carriedBits, Bool.and_eq_true, decide_eq_true_eq, and_assoc]

section
variable {body : List Byte} {c : Carrier} {s : State}

theorem ownerMarkerLoad_no_carrier (hc : carrierOf (field body 0 1) = none) :
    ownerMarkerLoad body s = Answer.refuse .badArgument s := by
  simp only [ownerMarkerLoad, hc]

theorem ownerMarkerLoad_unfit (hn : ¬ MarkerFits body) : ownerMarkerLoad body s = Answer.refuse .badArgument s := by
  rw [markerFits_iff, Bool.not_eq_true] at hn
  unfold ownerMarkerLoad
  cases carrierOf (field body 0 1) with
  | none => rfl
  | some c => simp only [hn, Bool.not_false, if_true]

/-- A READY unit takes as many of the bits as the length says (R131). -/
theorem ownerMarkerLoad_ready (hc : carrierOf (field body 0 1) = some c) (hn : MarkerFits body)
    (hm : (s.car c).marker = []) :
    ownerMarkerLoad body s =
      { code := .ok, content := octets 1 (field body 1 1)
        state := wakeTrigger c (s.modCar c fun k => { k with marker := (carriedBits body).take (field body 1 1) }) } := by
  simp only [ownerMarkerLoad, hc, (markerFits_iff body).1 hn, hm]
  rfl

theorem ownerMarkerLoad_busy (hc : carrierOf (field body 0 1) = some c) (hn : MarkerFits body)
    (hm : (s.car c).marker ≠ []) :
    ownerMarkerLoad body s = Answer.refuse .markerBusy (latch (.markerFault c) s) := by
  simp only [ownerMarkerLoad, hc, (markerFits_iff body).1 hn, List.isEmpty_eq_false_iff.2 hm]
  rfl

/-! ### GUARD_TEST and MARKER_CLEAR judge their carrier alone (R84, R133) -/

theorem ownerGuardTest_no_carrier (hc : carrierOf (field body 0 1) = none) :
    ownerGuardTest body s = Answer.refuse .badArgument s := by
  simp only [ownerGuardTest, hc]

theorem ownerGuardTest_carrier (hc : carrierOf (field body 0 1) = some c) :
    ownerGuardTest body s =
      { code := .ok, content := [], state := s.setCar c { s.car c with guardArmed := true } } := by
  simp only [ownerGuardTest, hc]
  rfl

theorem ownerMarkerClear_no_carrier (hc : carrierOf (field body 0 1) = none) :
    ownerMarkerClear body s = Answer.refuse .badArgument s := by
  simp only [ownerMarkerClear, hc]

theorem ownerMarkerClear_carrier (hc : carrierOf (field body 0 1) = some c) :
    ownerMarkerClear body s =
      { code := .ok, content := [BitVec.ofNat 8 (s.car c).marker.length]
        state := s.setCar c { s.car c with marker := [] } } := by
  simp only [ownerMarkerClear, hc, octets_one]
  rfl

end

/-! ### The three requests answered by their owners (R157, R165) -/

section
variable {f : RxFrame} {s : State} {a : Answer}

theorem exec_guardTest (h : Takes 0x38 f s) (hl : 1 ≤ f.body.length)
    (ha : ownerGuardTest f.body (requested 0x38 f s) = a) :
    exec (.guardTest f) s = .next (replied 0x38 f (replyOctet a.code) a.content a.state) :=
  congrArg Host.Outcome.next (takeRequest_owner h hl ownerGuardTest ha)

theorem exec_markerClear (h : Takes 0x32 f s) (hl : 1 ≤ f.body.length)
    (ha : ownerMarkerClear f.body (requested 0x32 f s) = a) :
    exec (.markerClear f) s = .next (replied 0x32 f (replyOctet a.code) a.content a.state) :=
  congrArg Host.Outcome.next (takeRequest_owner h hl ownerMarkerClear ha)

theorem exec_markerLoad (h : Takes 0x31 f s) (hl : 2 ≤ f.body.length)
    (ha : ownerMarkerLoad f.body (requested 0x31 f s) = a) :
    exec (.markerLoad f) s = .next (replied 0x31 f (replyOctet a.code) a.content a.state) :=
  congrArg Host.Outcome.next (takeRequest_owner h hl ownerMarkerLoad ha)

end

/-! ### MARKER_LOAD (R131, R132) -/

section
variable {f : RxFrame} {s : State} {c : Carrier}

/-- A READY unit takes the bits, and the load wakes the carrier. -/
theorem exec_markerLoad_taken (h : Takes 0x31 f s) (hl : 2 ≤ f.body.length) (hc : carrierOf (field f.body 0 1) = some c)
    (hn : MarkerFits f.body) (hm : (s.car c).marker = []) :
    exec (.markerLoad f) s = .next (replied 0x31 f 0x00 [BitVec.ofNat 8 (field f.body 1 1)]
      ((requested 0x31 f s).setCar c { s.car c with
        marker := (carriedBits f.body).take (field f.body 1 1)
        power := wokenPower s.now (s.par c).wake (s.car c).power })) := by
  have ha := ownerMarkerLoad_ready (s := requested 0x31 f s) hc hn hm
  rw [octets_one, wakeTrigger_eq, State.modCar_car_same, State.modCar, State.setCar_setCar] at ha
  exact exec_markerLoad h hl ha

/-- A BUSY unit keeps its sequence, and MARKER_FAULT latches. -/
theorem exec_markerLoad_markerBusy (h : Takes 0x31 f s) (hl : 2 ≤ f.body.length)
    (hc : carrierOf (field f.body 0 1) = some c) (hn : MarkerFits f.body) (hm : (s.car c).marker ≠ []) :
    exec (.markerLoad f) s = .next (replied 0x31 f 0x0A [] (latch (.markerFault c) (requested 0x31 f s))) :=
  exec_markerLoad h hl (ownerMarkerLoad_busy (s := requested 0x31 f s) hc hn hm)

/-- The carrier or the length is out of range. -/
theorem exec_markerLoad_badArgument (h : Takes 0x31 f s) (hl : 2 ≤ f.body.length)
    (hbad : carrierOf (field f.body 0 1) = none ∨ ¬ MarkerFits f.body) :
    exec (.markerLoad f) s = .next (replied 0x31 f 0x02 [] (requested 0x31 f s)) := by
  obtain hc | hn := hbad
  · exact exec_markerLoad h hl (ownerMarkerLoad_no_carrier hc)
  · exact exec_markerLoad h hl (ownerMarkerLoad_unfit hn)

end

/-- Settles O49. The two requests of one carrier octet go by it alone; a load goes by check 1 of R131, then by whether the
unit is READY (R132). -/
theorem markerRequestsJudged : Obligations.MarkerRequestsJudged := by
  unfold Obligations.MarkerRequestsJudged
  refine ⟨fun f s hl => ⟨fun h => ?guardTest, fun h => ?markerClear⟩, fun f s h hl => ⟨fun c hc hn hm => ?taken,
    fun c hc hn hm => exec_markerLoad_markerBusy h hl hc hn hm, exec_markerLoad_badArgument h hl⟩⟩
  case guardTest =>
    exact ⟨fun c hc => exec_guardTest h hl (ownerGuardTest_carrier hc),
      fun hout => exec_guardTest h hl (ownerGuardTest_no_carrier (carrierOf_outside hout))⟩
  case markerClear =>
    exact ⟨fun c hc => exec_markerClear h hl (ownerMarkerClear_carrier hc),
      fun hout => exec_markerClear h hl (ownerMarkerClear_no_carrier (carrierOf_outside hout))⟩
  case taken =>
    have ⟨_, _, hcarried⟩ := hn
    refine ⟨_, ?_, fun i hi => ?_, exec_markerLoad_taken h hl hc hn hm⟩
    · rw [List.length_take, length_carriedBits, Nat.min_eq_left hcarried]
    · rw [List.getElem?_take_of_lt hi, getElem?_carriedBits (hi.trans_le hcarried)]

end Sys2Proof.Machine
end

section
/-! Proofs about file 10: what a COUNTERS reply carries and clears, what CLEAR_ALARMS leaves latched (O60). -/

namespace Sys2Proof.Machine

open Sys2Proof.Safety

/-! ### The content of a COUNTERS reply (R174) -/

theorem length_octets (len n : Nat) : (octets len n).length = len := by
  induction len with
  | zero => rfl
  | succ len ih => rw [octets, List.length_cons, ih]

theorem length_counterOctets (x : BitVec 16) : (counterOctets x).length = 2 := length_octets 2 x.toNat

theorem length_kindCounts (k : TrafficKind) (p : PartCounters) : (kindCounts k p).length = 4 := by
  simp [kindCounts, length_counterOctets]

/-- Seventeen counters: the twelve refusal reasons and five more. -/
theorem length_carrierCounts (k : CarrierCounters) : (carrierCounts k).length = 34 := by
  simp [carrierCounts, List.length_flatMap, length_counterOctets]

/-- The counters of the part that stand before the kinds' counts in a COUNTERS reply. -/
def openingCounts (p : PartCounters) : List Byte :=
  counterOctets p.badFrames ++ counterOctets p.ownDrops ++ counterOctets p.relayDrops ++ counterOctets p.marksRejected ++
    counterOctets p.strayPulses

theorem length_openingCounts (p : PartCounters) : (openingCounts p).length = 10 := by
  simp [openingCounts, length_counterOctets]

/-- The taken and unmatched counts of the four traffic kinds, kind by kind (log 40). -/
def trafficCounts (p : PartCounters) : List Byte :=
  kindCounts .timeMark p ++ kindCounts .batchHeader p ++ kindCounts .batchBlock p ++ kindCounts .cancel p

theorem length_trafficCounts (p : PartCounters) : (trafficCounts p).length = 16 := by
  simp [trafficCounts, length_kindCounts]

/-- The counters of the four carriers. -/
def allCarrierCounts (s : State) : List Byte :=
  carrierCounts (s.car .c1).counters ++ carrierCounts (s.car .c2).counters ++ carrierCounts (s.car .c3).counters ++
    carrierCounts (s.car .c4).counters

theorem length_allCarrierCounts (s : State) : (allCarrierCounts s).length = 136 := by
  simp [allCarrierCounts, length_carrierCounts]

theorem countersContent_eq (s : State) :
    countersContent s = openingCounts s.mgmt.counters ++ (trafficCounts s.mgmt.counters ++
      (counterOctets s.mgmt.counters.requests ++ allCarrierCounts s)) := by
  simp only [countersContent, openingCounts, trafficCounts, allCarrierCounts, List.append_assoc]

theorem length_countersContent (s : State) : (countersContent s).length = 164 := by
  simp [countersContent_eq, length_openingCounts, length_trafficCounts, length_counterOctets, length_allCarrierCounts]

theorem countersContent_opening (s : State) : (countersContent s).take 10 = openingCounts s.mgmt.counters := by
  rw [countersContent_eq, List.take_left' (length_openingCounts _)]

theorem countersContent_requests (s : State) :
    ((countersContent s).drop 26).take 2 = counterOctets s.mgmt.counters.requests := by
  have hbefore : (openingCounts s.mgmt.counters ++ trafficCounts s.mgmt.counters).length = 26 := by
    rw [List.length_append, length_openingCounts, length_trafficCounts]
  rw [countersContent_eq, ← List.append_assoc, List.drop_left' hbefore, List.take_left' (length_counterOctets _)]

/-! ### Clearing (R173, R174) -/

theorem clearCounters_car_eq (s : State) (c : Carrier) :
    (clearCounters s).car c = { s.car c with counters := CarrierCounters.reset } :=
  Quad.get_map _ s.carriers c

theorem Alarm.mask_eq_twoPow (a : Alarm) : a.mask = BitVec.twoPow 32 a.bit := by
  apply BitVec.eq_of_toNat_eq
  rw [Alarm.mask, BitVec.toNat_ofNat, BitVec.toNat_twoPow]

theorem carrierPlace_le (c : Carrier) : carrierPlace c ≤ 3 := by
  cases c <;> decide

theorem Alarm.bit_lt (a : Alarm) : a.bit < 32 := by
  cases a with
  | clockLost | holdover | holdoverExpired | epochMismatch | epochRenumbered => decide
  | marginLow c | noCarrier c | stuckCarrier c | storeGuard c | offsetClamped c | markerFault c =>
    have hplace := carrierPlace_le c
    simp only [Alarm.bit]
    omega

theorem Alarm.mask_ne_zero (a : Alarm) : a.mask ≠ 0 := by
  intro hzero
  have hbit : a.mask.getLsbD a.bit = true := by simp [a.mask_eq_twoPow, a.bit_lt]
  exact absurd hbit (by simp [hzero])

/-- An alarm set names an alarm where the alarm's bit is set. -/
theorem and_mask_beq_zero (set : BitVec 32) (a : Alarm) : ((set &&& a.mask) == 0) = !set.getLsbD a.bit := by
  rw [a.mask_eq_twoPow, BitVec.and_twoPow, ← a.mask_eq_twoPow]
  cases set.getLsbD a.bit with
  | false => rfl
  | true => exact beq_false_of_ne a.mask_ne_zero

theorem clearMarkers_car_eq (set : BitVec 32) (s : State) (c : Carrier) :
    (clearMarkers set s).car c =
      { s.car c with guardMarker := (s.car c).guardMarker && !set.getLsbD (Alarm.storeGuard c).bit } := by
  rw [← and_mask_beq_zero]
  exact Quad.get_map _ s.carriers c

/-! ### The two requests answered by their owners (R157, R165) -/

section
variable {f : RxFrame} {s : State}

/-- The content is formed before the counters are cleared, the request itself counted (R174). -/
theorem exec_counters (h : Takes 0x24 f s) :
    exec (.counters f) s =
      .next (replied 0x24 f 0x00 (countersContent (requested 0x24 f s)) (clearCounters (requested 0x24 f s))) :=
  congrArg Host.Outcome.next (takeRequest_owner h (Nat.zero_le _) ownerCounters rfl)

/-- The reply carries the alarms that the clearing leaves latched (R173). -/
theorem exec_clearAlarms (h : Takes 0x25 f s) (hl : 4 ≤ f.body.length) {set : BitVec 32}
    (hset : BitVec.ofNat 32 (field f.body 0 4) = set) :
    exec (.clearAlarms f) s =
      .next (replied 0x25 f 0x00 (octets 4 (s.mgmt.alarms &&& ~~~(set &&& usedAlarms)).toNat)
        (clearMarkers set (clearAlarmSet set (requested 0x25 f s)))) := by
  subst hset
  exact congrArg Host.Outcome.next (takeRequest_owner h hl ownerClearAlarms rfl)

end

/-- Settles O60. A COUNTERS reply is formed, then the counters cleared (R174); CLEAR_ALARMS clears the alarms it names and
the test markers of the STORE_GUARDs among them (R173). -/
theorem countersAndAlarmsCleared : Obligations.CountersAndAlarmsCleared := by
  unfold Obligations.CountersAndAlarmsCleared
  refine fun f s => ⟨fun h => ?counters, fun h hl => ?clearAlarms⟩
  case counters =>
    exact ⟨_, _, exec_counters h, length_countersContent _, countersContent_opening _, countersContent_requests _, rfl,
      clearCounters_car_eq (requested 0x24 f s)⟩
  case clearAlarms =>
    exact ⟨_, exec_clearAlarms h hl rfl, rfl, clearMarkers_car_eq _ (clearAlarmSet _ (requested 0x25 f s))⟩

end Sys2Proof.Machine
end

section
/-! Predicates on states that the link leaves alone, and what it takes for every step to keep one. -/

namespace Sys2Proof.Machine

open Sys2Proof.Safety

/-- A predicate on states that the reception of frames, the counting of them and a frame offered to the own queue keep. -/
structure FrameSafe (P : State → Prop) : Prop where
  heard : ∀ s rx frames, P s → P (s.setLink { s.link with rxUp := rx, repeatStore := frames })
  counted : ∀ s counters, P s → P (s.setMgmt { s.mgmt with counters := counters })
  offered : ∀ f s, P s → P (offerOwn f s)

section
variable {P : State → Prop} (hP : FrameSafe P)
include hP

theorem FrameSafe.modPart (f : PartCounters → PartCounters) {s : State} (h : P s) : P (modPart f s) := hP.counted s _ h

/-- A frame received on UP is taken by its row, or only heard. -/
theorem FrameSafe.receiveUp (kind : Byte) {take : Frame → State → State} (ht : ∀ f s, P s → P (take f s)) (f : RxFrame)
    {s : State} (h : P s) : P (receiveUp kind take f s) := by
  by_cases hk : Takes kind f s
  · rw [receiveUp_takes hk]
    exact ht _ _ (hP.heard s _ _ h)
  · rw [receiveUp_untaken hk]
    split
    · exact hP.modPart _ (hP.heard s .hunt s.link.repeatStore h)
    · exact hP.heard s .hunt _ h

/-- A traffic row keeps what its owner keeps. -/
theorem FrameSafe.traffic (kind : Byte) (k : TrafficKind) (len : Nat) {owner : List Byte → State → State}
    (ho : ∀ body s, P s → P (owner body s)) (f : RxFrame) {s : State} (h : P s) :
    P (Machine.receiveUp kind (takeTraffic k len owner) f s) := by
  refine hP.receiveUp kind (fun f s h => ?_) f h
  have hc : P (countTaken k s) := hP.modPart _ h
  unfold takeTraffic
  split
  · exact ho _ _ hc
  · exact hP.modPart _ hc

/-- A request row keeps what its owner keeps. -/
theorem FrameSafe.request (kind : Byte) (len : Nat) {owner : List Byte → State → Answer}
    (ho : ∀ body s, P s → P (owner body s).state) (f : RxFrame) {s : State} (h : P s) :
    P (Machine.receiveUp kind (takeRequest len owner) f s) := by
  refine hP.receiveUp kind (fun f s h => hP.offered _ _ ?_) f h
  have hc : P (countRequest s) := hP.modPart _ h
  unfold judgeRequest
  split
  · exact hc
  · exact ho _ _ hc

end

/-- What every command keeps, and the queue does not touch, every step keeps. -/
theorem step_keeps {P : State → Prop} (hq : ∀ s q, P s → P (s.setPending q))
    (he : ∀ i s t, P s → exec i s = .next t → P t) {s t : State} (h : P s) (hs : step s = .next t) : P t := by
  unfold step at hs
  split at hs
  · injection hs with hs
    exact hs ▸ h
  · exact he _ _ _ (hq _ _ h) hs

end Sys2Proof.Machine
end

section
/-! What the commands keep of the Batch Table and the Symbol Store, once the change of a record, its end and the spending of a
block keep it. -/

namespace Sys2Proof.Machine

open Sys2Proof.Safety

/-- A predicate on the Batch Table and the store that survives a change of a record outside its id and its blocks, the end of a
batch, and the spending of a block. -/
structure TableSafe (P : State → Prop) : Prop where
  congr : ∀ {s t : State}, t.batches = s.batches → t.store = s.store → P s → P t
  changes : ∀ {s : State}, P s → ∀ (id : BatchId) {f : Batch → Batch},
    (∀ b, (f b).id = b.id ∧ (f b).blocks = b.blocks ∧ (f b).slots = b.slots ∧ (f b).rate = b.rate) → P (modBatch id f s)
  ends : ∀ {s : State}, P s → ∀ (id : BatchId) (why : EndReason), P (endBatch id why s)
  spends : ∀ {s : State}, P s → ∀ (id : BatchId) (i : Nat), P (spendBlock id i s)
  storeLow : ∀ {s : State}, P s → P (evalStoreLow s)

section
variable {P : State → Prop} (hP : TableSafe P)
include hP

/-! ### Claim maps and cancels (R61, R62, R75) -/

protected theorem TableSafe.endStale (c : Carrier) (ids : List BatchId) {s : State} (h : P s) :
    P (endStale c ids s) := by
  induction ids generalizing s with
  | nil => exact h
  | cons id ids ih => exact ih (hP.ends (hP.congr (by simp) (by simp) h) _ _)

protected theorem TableSafe.bringMaps (c : Carrier) {s : State} (h : P s) : P (bringMaps c s) := by
  unfold bringMaps
  split
  · exact h
  · dsimp only
    split_ifs
    · exact h
    · exact hP.congr (by simp) (by simp) (hP.endStale c (claimIds (s.car c).maps.current) h)
    · exact hP.congr (by simp) (by simp) (hP.endStale c (claimIds (s.car c).maps.current ++ claimIds (s.car c).maps.next) h)

protected theorem TableSafe.bringAllMaps {s : State} (h : P s) : P (bringAllMaps s) :=
  hP.bringMaps _ (hP.bringMaps _ (hP.bringMaps _ (hP.bringMaps _ h)))

protected theorem TableSafe.replaceClaimant (c : Carrier) (n : CycleNo) (i : Fin 32) {s : State} (h : P s) :
    P (replaceClaimant c n i s) := by
  unfold replaceClaimant
  split
  · exact hP.ends h _ _
  · exact h

protected theorem TableSafe.assignByRun_endBatch (c : Carrier) (k : OutcomeCode) (id : BatchId) (why : EndReason) {s : State}
    (h : P s) : P (endBatch id why (assignByRun c k id s)) :=
  hP.ends (hP.congr (by simp) (by simp) h) _ _

protected theorem TableSafe.assignCode_endBatch (c : Carrier) (sl : SlotRef) (k : OutcomeCode) (x : Option BatchId) (id : BatchId)
    (why : EndReason) {s : State} (h : P s) : P (endBatch id why (assignCode c sl k x s)) :=
  hP.ends (hP.congr (by simp) (by simp) h) _ _

protected theorem TableSafe.ownerCancel (body : List Byte) {s : State} (h : P s) :
    P (ownerCancel body s) := by
  unfold ownerCancel
  dsimp only
  split
  · exact hP.congr (by simp) (by simp) h
  have hincoming (b : Batch) (id : BatchId) : P (if (s.car b.carrier).sched.incoming = some id
      then endBatch id .cancelled (assignByRun b.carrier .cancelled id s) else endBatch id .cancelled s) := by
    split
    · exact hP.assignByRun_endBatch _ _ _ _ h
    · exact hP.ends h _ _
  split
  · exact hP.changes h _ fun b => ⟨rfl, rfl, rfl, rfl⟩
  · exact hP.assignByRun_endBatch _ _ _ _ h
  · exact hincoming _ _
  · exact hincoming _ _

/-! ### Slot decisions (R87 to R96) -/

protected theorem TableSafe.handOver (c : Carrier) {s : State} (h : P s) : P (handOver c s) := by
  unfold handOver
  split
  · exact hP.changes (hP.congr (by simp) (by simp) h) _ fun b => ⟨rfl, rfl, rfl, rfl⟩
  · exact h

protected theorem TableSafe.pushOnAir (c : Carrier) (sl : SlotRef) (id : BatchId) {s : State} (h : P s) :
    P (pushOnAir c sl id s) := by
  have hd : P (displaceOldest c sl s) := by
    unfold displaceOldest
    split
    · split
      · exact hP.assignCode_endBatch _ _ _ _ _ _ h
      · exact h
    · exact h
  exact hP.congr (by simp [pushOnAir]) (by simp [pushOnAir])
    (hP.changes hd id (f := fun b => { b with state := .suspended }) fun b => ⟨rfl, rfl, rfl, rfl⟩)

protected theorem TableSafe.stopBatch (c : Carrier) (sl : SlotRef) (id : BatchId) (why : StopReason) {s : State}
    (h : P s) : P (stopBatch c sl id why s) := by
  unfold stopBatch
  dsimp only
  split
  · exact hP.congr (by simp) (by simp) h
  · exact hP.assignCode_endBatch _ _ _ _ _ _ h

protected theorem TableSafe.dropClaimant (c : Carrier) (sl : SlotRef) (b : Batch) (k : OutcomeCode) (why : EndReason) {s : State}
    (h : P s) : P (dropClaimant c sl b k why s) :=
  hP.assignCode_endBatch _ _ _ _ _ _ h

protected theorem TableSafe.gateHolds (c : Carrier) (sl : SlotRef) (b : Option Batch) (k : OutcomeCode) (why : EndReason)
    {s : State} (h : P s) : P (gateHolds c sl b k why s) := by
  cases b with
  | none => exact hP.congr (by simp [gateHolds]) (by simp [gateHolds]) h
  | some b => exact hP.dropClaimant c sl b k why h

protected theorem TableSafe.markerStep (c : Carrier) (sl : SlotRef) {s : State} (h : P s) :
    P (markerStep c sl s).2 := by
  have hm : P (marksOnAir c sl s) := by
    unfold marksOnAir
    split
    · split_ifs
      · exact hP.stopBatch _ _ _ _ h
      · exact hP.pushOnAir _ _ _ h
      · exact h
    · exact h
  unfold markerStep
  dsimp only
  split <;> exact hP.congr (by simp) (by simp) hm

protected theorem TableSafe.claimantStep (c : Carrier) (sl : SlotRef) (b : Option Batch) {s : State} (h : P s) :
    P (claimantStep c sl b s).2 := by
  unfold claimantStep
  split
  · exact h
  split_ifs
  · exact hP.dropClaimant _ _ _ _ _ h
  · exact hP.dropClaimant _ _ _ _ _ h
  · exact hP.dropClaimant _ _ _ _ _ h
  · split
    · split_ifs
      · exact hP.pushOnAir _ _ _ h
      · exact hP.dropClaimant _ _ _ _ _ h
    · exact h

protected theorem TableSafe.continueStep (c : Carrier) (sl : SlotRef) (p : Option Program) {s : State} (h : P s) :
    P (continueStep c sl p s).2 := by
  unfold continueStep
  split
  · exact h
  · split_ifs
    · exact h
    · exact hP.stopBatch _ _ _ _ h
    · exact hP.stopBatch _ _ _ _ h
    · exact h

protected theorem TableSafe.resumeStep (c : Carrier) (sl : SlotRef) (ids : List BatchId) {s : State} (h : P s) :
    P (resumeStep c sl ids s).2 := by
  induction ids generalizing s with
  | nil => exact h
  | cons id ids ih =>
    unfold resumeStep
    split
    · split_ifs
      · exact h
      · exact ih (hP.assignCode_endBatch _ _ _ _ _ _ h)
    · exact ih h

protected theorem TableSafe.trafficSteps (c : Carrier) (sl : SlotRef) (b : Option Batch) {s : State} (h : P s) :
    P (trafficSteps c sl b s).2 := by
  have h5 := hP.continueStep c sl (claimantStep c sl b s).1 (hP.claimantStep c sl b h)
  unfold trafficSteps
  dsimp only
  split
  · exact h5
  · have h6 := hP.resumeStep c sl ((continueStep c sl (claimantStep c sl b s).1 (claimantStep c sl b s).2).2.car
      c).sched.stack h5
    split
    · exact h6
    · exact hP.congr (by simp) (by simp) h6

protected theorem TableSafe.decisionSteps (c : Carrier) (sl : SlotRef) (b : Option Batch) {s : State} (h : P s) :
    P (decisionSteps c sl b s).2 := by
  unfold decisionSteps
  split_ifs
  · exact hP.gateHolds _ _ _ _ _ h
  · exact hP.gateHolds _ _ _ _ _ h
  · exact hP.markerStep _ _ h
  · exact hP.trafficSteps _ _ _ h

protected theorem TableSafe.programBatch (c : Carrier) (sl : SlotRef) (b : Batch) {s : State} (h : P s) :
    P (programBatch c sl b s) :=
  hP.congr (by simp [programBatch]) (by simp [programBatch])
    (hP.changes h b.id (f := fun x => { x with nextBlock := x.nextBlock + slotBlocks b })
      fun b => ⟨rfl, rfl, rfl, rfl⟩)

protected theorem TableSafe.bringOnAir (c : Carrier) (id : BatchId) {s : State} (h : P s) :
    P (bringOnAir c id s) :=
  hP.handOver c (hP.congr (by simp) (by simp) h)

protected theorem TableSafe.takeProgram (c : Carrier) (sl : SlotRef) (p : Program) {s : State} (h : P s) :
    P (takeProgram c sl p s) := by
  unfold takeProgram
  split
  · split
    · exact hP.programBatch _ _ _ (hP.bringOnAir _ _ (hP.congr (by simp) (by simp) h))
    · exact h
  · split
    · exact hP.programBatch _ _ _ (hP.bringOnAir _ _ h)
    · exact h
  · split
    · exact hP.programBatch _ _ _ h
    · exact h
  · exact hP.congr (by simp) (by simp) h
  · exact h
  · exact h

protected theorem TableSafe.slotDecision (c : Carrier) {s : State} (h : P s) :
    P (slotDecision c s) := by
  unfold slotDecision
  split
  · next sl _ =>
    refine hP.takeProgram c sl _ (hP.congr (setProgram_keeps _ _ _ _).2.2.1
      (setProgram_keeps _ _ _ _).2.2.2.1 (hP.decisionSteps c sl _ ?_))
    exact hP.congr (by simp) (by simp) (hP.bringMaps c h)
  · exact h

protected theorem TableSafe.currentCycleAdvance (c : Carrier) {s : State} (h : P s) :
    P (currentCycleAdvance c s) := by
  unfold currentCycleAdvance
  split
  · split
    · exact h
    · exact hP.bringMaps c h
  · exact hP.bringMaps c h

/-! ### Symbols and payload ends (R30, R31, R82, R83) -/

protected theorem TableSafe.tracker (f : Tracker → Tracker) {s : State} (h : P s) : P (modTracker f s) :=
  hP.congr (s := s) (by simp) (by simp) h

protected theorem TableSafe.releaseNow (c : Carrier) (x : Option SlotRef) {s : State} (h : P s) : P (releaseNow c x s) := by
  have hback (s : State) (r : Run) (h : P s) : P (setBack r s) := by
    unfold setBack
    split
    · split
      · exact h
      · exact hP.changes h _ fun b => ⟨rfl, rfl, rfl, rfl⟩
    · exact h
  unfold releaseNow
  split
  · exact h
  · dsimp only
    refine hP.congr (s := ((s.car c).timer.runs.foldl (fun s r => setBack r s)
      (((s.car c).timer.runs.filter fun r => some r.slot ≠ x).foldl (fun s r => cutRun c r s) s))) (by simp) (by simp) ?_
    exact foldl_inv (P := P) hback _ (foldl_inv (P := P) (fun s r h => hP.congr (by simp) (by simp) h) _ h)

protected theorem TableSafe.releaseAll {s : State} (h : P s) : P (releaseAll s) :=
  hP.releaseNow _ _ (hP.releaseNow _ _ (hP.releaseNow _ _ (hP.releaseNow _ _ h)))

protected theorem TableSafe.flushBatch (why : EndReason) (b : Batch) {s : State} (h : P s) : P (flushBatch why b s) := by
  unfold flushBatch
  split
  · exact hP.ends h _ _
  · split
    · exact hP.assignByRun_endBatch _ _ _ _ h
    · exact hP.ends h _ _

protected theorem TableSafe.guardFault (c : Carrier) (r : Run) (id : BatchId) {s : State} (h : P s) :
    P (guardFault c r id s) :=
  hP.congr (by simp [guardFault]) (by simp [guardFault]) (hP.handOver c
    (hP.ends (hP.releaseNow c (some r.slot)
      (hP.congr (s := s) (t := assignCode c r.slot .guardFault (some id) s) (by simp) (by simp) h)) id .cut))

protected theorem TableSafe.symbolEmit (c : Carrier) {s : State} (h : P s) : P (symbolEmit c s) := by
  have hemit (r : Run) (u : State) (hu : P u) : P (advanceRun c r (emitWord c r u)) :=
    hP.congr (by simp) (by simp) hu
  have hclose (r : Run) (id : BatchId) (i : Nat) (u : State) (hu : P u) :
      P (closeBlock c r id i u) := by
    have hspent := hP.spends hu id i
    unfold closeBlock
    split_ifs
    · exact hP.congr (by simp) (by simp) hu
    · exact hP.congr (by simp) (by simp) hspent
    · exact hP.guardFault _ _ _ hspent
  unfold symbolEmit
  split
  · split
    · next r _ _ =>
      have hkey : P (keyFirst c r s) := hP.congr (by simp) (by simp) h
      unfold emitSymbol
      split
      · exact hemit _ _ hkey
      · split_ifs
        · exact hP.guardFault _ _ _ hkey
        · exact hclose _ _ _ _ (hP.congr (by simp) (by simp) hkey)
        · exact hemit _ _ hkey
    · exact h
  · exact h

protected theorem TableSafe.payloadEnd (c : Carrier) {s : State} (h : P s) : P (payloadEnd c s) := by
  have hsettle (r : Run) (u : State) (hu : P u) : P (settleRun c r u) := by
    unfold settleRun
    dsimp only
    split
    · exact hP.congr (by simp) (by simp) hu
    · split_ifs
      · exact hu
      · exact hP.handOver c (hP.assignCode_endBatch _ _ _ _ _ _ hu)
      · split
        · exact hP.handOver c (hP.assignCode_endBatch _ _ _ _ _ _ hu)
        · exact hP.congr (by simp) (by simp) hu
      · split <;> exact hP.congr (by simp) (by simp) hu
  unfold payloadEnd
  split
  · split
    · refine hP.congr (startTail_keeps _ _).2.2.1 (startTail_keeps _ _).2.2.2.1 (hsettle _ _ ?_)
      exact hP.congr (s := s) (by simp) (by simp) h
    · exact h
  · exact h

/-! ### Epoch starts, a lost clock, RESTART (R2, R12 to R15, R77 to R79) -/

protected theorem TableSafe.flushAll (why : EndReason) {s : State} (h : P s) : P (flushAll why s) :=
  hP.congr (s := s.batches.foldl (fun s b => flushBatch why b s) s) (by simp [flushAll]) (by simp [flushAll])
    (foldl_inv (P := P) (fun _ _ => hP.flushBatch _ _) _ h)

protected theorem TableSafe.timingLoss {s : State} (h : P s) : P (timingLoss s) :=
  hP.flushAll _ (hP.releaseAll (hP.congr (s := s) (by simp) (by simp) h))

protected theorem TableSafe.completeStart {s : State} (h : P s) : P (completeStart s) := by
  have hn : P (modTracker Tracker.takeNumber s) := hP.tracker _ h
  unfold completeStart
  refine hP.bringAllMaps (hP.congr (startReports_keeps _ _).2.2.1 (startReports_keeps _ _).2.2.2.1 ?_)
  split_ifs
  · exact hP.flushAll _ (hP.releaseAll (hP.congr (by simp) (by simp) hn))
  · exact hn

protected theorem TableSafe.holdoverStart {s : State} (h : P s) : P (holdoverStart s) := by
  unfold holdoverStart
  split
  · have ht : P (latchIf (s.tracker.ref = .locked) .holdover (modTracker Tracker.holdOver s)) :=
      hP.congr (s := s) (by simp) (by simp) h
    dsimp only
    split_ifs
    · exact hP.completeStart (hP.tracker _ ht)
    · have hl := hP.timingLoss ht
      unfold expireHoldover
      dsimp only
      split_ifs
      · refine hP.congr (recordAllOpen_keeps _).2.2.1 (recordAllOpen_keeps _).2.2.2.1
          (hP.completeStart ?_)
        exact hP.congr (by simp) (by simp) hl
      · refine hP.completeStart ?_
        exact hP.congr (by simp) (by simp) hl
  · exact h

protected theorem TableSafe.epochPulse {s : State} (h : P s) : P (epochPulse s) := by
  unfold epochPulse
  split
  · exact h
  · exact hP.completeStart (hP.tracker _ h)
  · split
    · exact hP.completeStart (hP.tracker _ h)
    · exact hP.congr (by simp) (by simp) h
  · split
    · exact hP.completeStart (hP.tracker _ h)
    · exact hP.congr (by simp) (by simp) h

protected theorem TableSafe.clockLost {s : State} (h : P s) : P (clockLost s) := by
  unfold clockLost
  split
  · exact h
  · exact hP.congr (by simp) (by simp) (hP.timingLoss h)

protected theorem TableSafe.ownerRestart (body : List Byte) {s : State} (h : P s) :
    P (ownerRestart body s).state := by
  unfold ownerRestart
  split
  · exact h
  · refine hP.congr (s := evalStoreLow (flushAll .noTiming (releaseAll (restartProbe s)))) (by simp [restartPart])
      (by simp [restartPart]) ?_
    exact hP.storeLow
      (hP.flushAll _ (hP.releaseAll (hP.congr (s := s) (by simp) (by simp) h)))

end

end Sys2Proof.Machine
end

section
/-! Every step keeps the store blocks accounted for (O7): what ends, fills and changes records does, and nothing else touches
the table or the store. -/

namespace Sys2Proof.Machine

open Sys2Proof.Safety

/-! ### Frames, requests and the queue -/

theorem blocksAccounted_frameSafe : FrameSafe BlocksAccounted where
  heard _ _ _ h := h
  counted _ _ h := h
  offered _ _ h := blocksAccounted_congr (by simp) (by simp) h

theorem blocksAccounted_tableSafe : TableSafe BlocksAccounted where
  congr := blocksAccounted_congr
  changes h := blocksAccounted_modBatch h
  ends h := blocksAccounted_endBatch h
  spends h := blocksAccounted_spendBlock h
  storeLow h := h

/-! ### Headers (R61 to R69) -/

/-- A batch that is not in the table does not come into it by stale claims ending. -/
theorem findBatch_endStale_none {id : BatchId} (c : Carrier) (ids : List BatchId) {s : State} (h : findBatch id s = none) :
    findBatch id (endStale c ids s) = none := by
  induction ids generalizing s with
  | nil => exact h
  | cons x xs ih =>
    refine ih ?_
    rw [findBatch_endBatch, findBatch_congr (assignByRun_keeps _ _ _ _).2.2.1, h, ite_self]

theorem findBatch_bringMaps_none {id : BatchId} (c : Carrier) {s : State} (h : findBatch id s = none) :
    findBatch id (bringMaps c s) = none := by
  unfold bringMaps
  split
  · exact h
  · dsimp only
    split_ifs
    · exact h
    · exact findBatch_endStale_none c _ h
    · exact findBatch_endStale_none c _ h

theorem findBatch_replaceClaimant_none {id : BatchId} (c : Carrier) (n : CycleNo) (i : Fin 32) {s : State}
    (h : findBatch id s = none) : findBatch id (replaceClaimant c n i s) = none := by
  unfold replaceClaimant
  split
  · rw [findBatch_endBatch, h, ite_self]
  · exact h

/-- An accepted header passed check 10 (R67): no record has its id. -/
theorem judgeHeader_accepted {f : HeaderFrame} {c : Carrier} {s : State} {h : HeaderFields} {n : CycleNo}
    (hv : judgeHeader f c s = .accepted h n) :
    findBatch f.id s = none ∧ s.batches.length < 64 ∧ ∃ m, currentCycle c s = some m ∧ (n = m ∨ n = m + 1) := by
  have hclaim {h' : HeaderFields} {n' : CycleNo} (hv : judgeClaim f.id c h' n' s = .accepted h n) :
      n' = n ∧ findBatch f.id s = none ∧ s.batches.length < 64 := by
    unfold judgeClaim at hv
    split_ifs at hv with _ _ hdup hfull
    injection hv with _ hn
    exact ⟨hn, by simpa using hdup, Nat.not_le.1 hfull⟩
  have hplaced {m : CycleNo} : (∀ k, placeHeader f.cycle m = .current k → k = m) ∧
      ∀ k, placeHeader f.cycle m = .next k → k = m + 1 := by
    unfold placeHeader
    dsimp only
    split_ifs <;> simp [eq_comm]
  unfold judgeHeader at hv
  split_ifs at hv
  split at hv
  · cases hv
  unfold judgePlace at hv
  split_ifs at hv
  cases hm : currentCycle c s with
  | none => simp [hm] at hv
  | some m =>
    simp only [hm] at hv
    cases hp : placeHeader f.cycle m with
    | tooEarly | late => simp [hp] at hv
    | current k =>
      simp only [hp] at hv
      split_ifs at hv
      obtain ⟨rfl, hfree, hroom⟩ := hclaim hv
      exact ⟨hfree, hroom, m, rfl, .inl (hplaced.1 _ hp)⟩
    | next k =>
      simp only [hp] at hv
      obtain ⟨rfl, hfree, hroom⟩ := hclaim hv
      exact ⟨hfree, hroom, m, rfl, .inr (hplaced.2 _ hp)⟩

theorem blocksAccounted_ownerHeader (body : List Byte) {s : State} (h : BlocksAccounted s) :
    BlocksAccounted (ownerHeader body s) := by
  unfold ownerHeader
  dsimp only
  split
  · exact blocksAccounted_congr (by simp) (by simp) h
  split
  · exact blocksAccounted_congr (by simp) (by simp) h
  · next c _ _ hd n hv =>
    obtain ⟨hfree, -⟩ := judgeHeader_accepted hv
    refine blocksAccounted_congr (s := addBatch (newBatch (headerFrame body).id c hd n)
      (bringMaps c (replaceClaimant c n hd.start s))) (by simp [acceptHeader]) (by simp [acceptHeader]) ?_
    exact blocksAccounted_addBatch (blocksAccounted_tableSafe.bringMaps c (blocksAccounted_tableSafe.replaceClaimant c n _ h))
      (findBatch_bringMaps_none c (findBatch_replaceClaimant_none c n _ hfree)) (fun x hx => List.eq_of_mem_replicate hx)
      List.length_replicate

/-! ### Blocks and cancels (R70 to R76) -/

@[simp] theorem recordLast_blocks (k : BlockFrame) (b : Batch) : (recordLast k b).blocks = b.blocks ∧
    (recordLast k b).slots = b.slots ∧ (recordLast k b).rate = b.rate ∧ (recordLast k b).carrier = b.carrier ∧
    (recordLast k b).start = b.start ∧ (recordLast k b).cycle = b.cycle ∧ (recordLast k b).state = b.state := by
  simp [recordLast_eq]

@[simp] theorem complete_blocks (now : Tick) (b : Batch) : (complete now b).blocks = b.blocks ∧
    (complete now b).slots = b.slots ∧ (complete now b).rate = b.rate ∧ (complete now b).carrier = b.carrier ∧
    (complete now b).start = b.start ∧ (complete now b).cycle = b.cycle := by
  unfold complete
  split <;> simp

/-- A block frame that is not malformed names a position of its batch's list (R70). -/
theorem index_lt_of_not_malformed {s : State} (ho : TableOrdered s) {b : Batch} {k : BlockFrame}
    (hb : findBatch k.id s = some b) (hm : ¬ blockMalformed b k = true) : k.index < b.blocks.length := by
  rw [ho.2 b (findBatch_some hb).2]
  rw [blockMalformed_iff] at hm
  omega

theorem blocksAccounted_ownerBlock (body : List Byte) {s : State} (h : BlocksAccounted s) :
    BlocksAccounted (ownerBlock body s) := by
  cases hb : findBatch (blockFrame body).id s with
  | none => rw [ownerBlock_orphan hb]; exact blocksAccounted_congr (by simp) (by simp) h
  | some b =>
    have hmark (g : Batch → Batch) (hg : ∀ b, (g b).id = b.id ∧ (g b).blocks = b.blocks ∧ (g b).slots = b.slots ∧
        (g b).rate = b.rate) : BlocksAccounted (countDiscard b.carrier (modBatch (blockFrame body).id g s)) :=
      blocksAccounted_congr (by simp) (by simp) (blocksAccounted_modBatch h (blockFrame body).id hg)
    by_cases hm : blockMalformed b (blockFrame body) = true
    · rw [ownerBlock_malformed hb hm]
      exact hmark _ fun b => ⟨rfl, rfl, rfl, rfl⟩
    by_cases hh : b.holds (blockFrame body).index = true
    · rw [ownerBlock_duplicate hb hm hh]
      exact hmark _ fun b => by simp
    rw [Bool.not_eq_true] at hh
    have hspec := lowestFree_spec (n := 0) h.1 fun _ _ => Nat.zero_le _
    cases hn : lowestFree s.store.cells 0 with
    | none =>
      rw [ownerBlock_full hb hm hh hn]
      exact hmark _ fun b => ⟨rfl, rfl, rfl, rfl⟩
    | some n =>
      rw [hn] at hspec
      obtain ⟨-, hlt, hfree, -⟩ := hspec
      rw [ownerBlock_taken hb hm hh hn]
      have hid := (findBatch_some hb).1
      have hi := index_lt_of_not_malformed h.2.1 hb hm
      rw [← hid] at hb ⊢
      exact blocksAccounted_allocate h hb hi ((b.holds_eq_false_iff _).1 hh) hlt hfree _ fun x => by simp

theorem blocksAccounted_ownerLoadSite (body : List Byte) {s : State} (h : BlocksAccounted s) :
    BlocksAccounted (ownerLoadSite body s).state := by
  unfold ownerLoadSite
  split
  · exact h
  · exact blocksAccounted_congr (s := evalStoreLow (loadDelays body
      (s.setMgmt { s.mgmt with service := .configured, params := loadedSite body }))) (by simp [loadSite])
      (by simp [loadSite]) (blocksAccounted_tableSafe.storeLow h)

theorem blocksAccounted_resetPart (straps : BitVec 12) (cause : ResetCause) (s : State) :
    BlocksAccounted (resetPart straps cause s) :=
  ⟨rfl, ⟨List.Pairwise.nil, fun _ hb => absurd hb List.not_mem_nil⟩, List.nodup_nil,
    fun _ _ => ⟨fun _ => List.not_mem_nil, fun _ => rfl⟩, fun _ hn => absurd hn List.not_mem_nil, rfl⟩

end Sys2Proof.Machine
end

section
/-! The commands that leave every record, claim, on-air batch, incoming batch, stack and store block where it is. -/

namespace Sys2Proof.Machine

open Sys2Proof.Safety

/-- No record, claim, store block, on-air batch, incoming batch or stack entry differs between the two states. -/
def SamePlaces (s t : State) : Prop :=
  t.batches = s.batches ∧ t.store.cells = s.store.cells ∧ t.store.freeCount = s.store.freeCount ∧
    ∀ c, (t.car c).maps = (s.car c).maps ∧ (t.car c).sched.onAir = (s.car c).sched.onAir ∧
      (t.car c).sched.incoming = (s.car c).sched.incoming ∧ (t.car c).sched.stack = (s.car c).sched.stack

theorem SamePlaces.refl (s : State) : SamePlaces s s := by simp [SamePlaces]

theorem SamePlaces.trans {s t u : State} (h : SamePlaces s t) (h' : SamePlaces t u) : SamePlaces s u := by
  simp_all [SamePlaces]

theorem SamePlaces.blocksAccounted {s t : State} (h : SamePlaces s t) (hs : BlocksAccounted s) : BlocksAccounted t := by
  obtain ⟨hb, hc, hf, -⟩ := h
  unfold BlocksAccounted StoreCanonical Store.wf TableOrdered heldBlocks readBlock at *
  rw [hb, hc, hf]
  exact hs

theorem SamePlaces.scheduled {s t : State} (h : SamePlaces s t) (hs : Scheduled s) : Scheduled t := by
  obtain ⟨hb, -, -, hc⟩ := h
  exact scheduled_congr hb (fun c => (hc c).1) (fun c => (hc c).2.1) (fun c => (hc c).2.2.1) (fun c => (hc c).2.2.2) hs

theorem samePlaces_frameSafe (s : State) : FrameSafe (SamePlaces s) where
  heard _ _ _ h := h
  counted _ _ h := h
  offered _ _ h := h.trans (by simp [SamePlaces])

/-- A change of one carrier outside its claim maps and its Scheduler. -/
theorem samePlaces_modCar (c : Carrier) {f : CarrierState → CarrierState} (hf : ∀ k, (f k).maps = k.maps ∧ (f k).sched = k.sched)
    (s : State) : SamePlaces s (s.modCar c f) := by
  refine ⟨rfl, rfl, rfl, fun d => ?_⟩
  rw [State.modCar_car]
  split
  · next hd => simp [hd, hf]
  · simp

/-! ### The owners of requests -/

section
variable (body : List Byte) (s : State)

theorem samePlaces_ownerEnableService : SamePlaces s (ownerEnableService body s).state := by
  unfold ownerEnableService
  split <;> simp [SamePlaces, Answer.refuse]

theorem samePlaces_ownerLoadSite : SamePlaces s (ownerLoadSite body s).state := by
  unfold ownerLoadSite
  split
  · exact .refl s
  · simp [SamePlaces, loadSite, evalStoreLow, loadDelays]

theorem samePlaces_ownerLoadAlign : SamePlaces s (ownerLoadAlign body s).state := by
  unfold ownerLoadAlign
  dsimp only
  split
  · exact .refl s
  · split_ifs <;> simp [SamePlaces, Answer.refuse]

theorem samePlaces_ownerCommitAlign : SamePlaces s (ownerCommitAlign body s).state := by
  unfold ownerCommitAlign
  dsimp only
  split <;> simp [SamePlaces]

theorem samePlaces_ownerReadAlign : SamePlaces s (ownerReadAlign body s).state := by
  unfold ownerReadAlign
  dsimp only
  split
  · split <;> exact .refl s
  · exact .refl s

theorem samePlaces_ownerEpochSet : SamePlaces s (ownerEpochSet body s).state := by
  unfold ownerEpochSet
  split <;> exact .refl s

theorem samePlaces_ownerSchedule : SamePlaces s (ownerSchedule body s).state := by
  unfold ownerSchedule
  split <;> exact .refl s

theorem samePlaces_ownerStandby : SamePlaces s (ownerStandby body s).state := by
  unfold ownerStandby
  split
  · exact .refl s
  · split
    · exact samePlaces_modCar _ (by simp) s
    · exact .refl s

theorem samePlaces_ownerMarkerLoad : SamePlaces s (ownerMarkerLoad body s).state := by
  unfold ownerMarkerLoad
  dsimp only
  split
  · exact .refl s
  · next c _ =>
    split_ifs
    · exact .refl s
    · simp [SamePlaces, Answer.refuse]
    · have hload : SamePlaces s (s.modCar c fun k => { k with marker := (carriedBits body).take (field body 1 1) }) :=
        samePlaces_modCar c (by simp) s
      exact hload.trans (by simp [SamePlaces])

theorem samePlaces_ownerMarkerClear : SamePlaces s (ownerMarkerClear body s).state := by
  unfold ownerMarkerClear
  split
  · exact .refl s
  · exact samePlaces_modCar _ (by simp) s

theorem samePlaces_ownerGuardTest : SamePlaces s (ownerGuardTest body s).state := by
  unfold ownerGuardTest
  split
  · exact .refl s
  · exact samePlaces_modCar _ (by simp) s

theorem samePlaces_ownerProbeStart : SamePlaces s (ownerProbeStart body s).state := by
  unfold ownerProbeStart
  dsimp only
  split
  · split <;> simp [SamePlaces, Answer.refuse]
  · simp [SamePlaces, Answer.refuse]

theorem samePlaces_ownerProbeAbort : SamePlaces s (ownerProbeAbort body s).state := by
  unfold ownerProbeAbort
  split <;> simp [SamePlaces, Answer.refuse]

theorem samePlaces_ownerProbeResult : SamePlaces s (ownerProbeResult body s).state := by
  unfold ownerProbeResult
  dsimp only
  split <;> simp [SamePlaces]

theorem samePlaces_ownerCounters : SamePlaces s (ownerCounters body s).state := by simp [SamePlaces, ownerCounters]

theorem samePlaces_ownerClearAlarms : SamePlaces s (ownerClearAlarms body s).state := by simp [SamePlaces, ownerClearAlarms]

theorem samePlaces_ownerTimeMark : SamePlaces s (ownerTimeMark body s) := by
  unfold ownerTimeMark takeMark
  split
  · simp [SamePlaces]
  · split
    · exact .refl s
    · split <;> simp [SamePlaces]

end

/-! ### The events -/

section
variable (s : State)

theorem samePlaces_clockReturn : SamePlaces s (clockReturn s) := by
  unfold clockReturn
  split <;> simp [SamePlaces]

theorem samePlaces_clockEdge : SamePlaces s (clockEdge s) := by
  unfold clockEdge
  split
  · exact samePlaces_clockReturn s
  · dsimp only
    split <;> simp [SamePlaces]

theorem samePlaces_tableRoll : SamePlaces s (tableRoll s) := by
  unfold tableRoll
  split
  · dsimp only
    split <;> simp [SamePlaces]
  · exact .refl s

theorem samePlaces_keyUp (c : Carrier) : SamePlaces s (keyUp c s) := by simp [SamePlaces]

theorem samePlaces_tailExpiry (c : Carrier) : SamePlaces s (tailExpiry c s) := by
  unfold tailExpiry
  split <;> simp [SamePlaces]

theorem samePlaces_wakeExpiry (c : Carrier) : SamePlaces s (wakeExpiry c s) := by
  unfold wakeExpiry
  split
  · exact samePlaces_modCar c (by simp) s
  · exact .refl s

theorem samePlaces_slotEnd (c : Carrier) : SamePlaces s (slotEnd c s) := by simp [SamePlaces, slotEnd]

theorem samePlaces_rfSenseChange (c : Carrier) (p : Bool) : SamePlaces s (rfSenseChange c p s) := by
  have hpin := samePlaces_modCar c (f := fun k => { k with monitor := { k.monitor with rfPin := p } }) (fun k => ⟨rfl, rfl⟩) s
  unfold rfSenseChange
  dsimp only
  split
  · exact hpin
  · exact (hpin.trans (samePlaces_modCar c (f := sampleChange s.now p) (fun k => ⟨rfl, rfl⟩) _)).trans (by simp [SamePlaces])

theorem samePlaces_stuckCarrier (c : Carrier) : SamePlaces s (stuckCarrier c s) := by
  unfold stuckCarrier
  split
  · split
    · have hrun : SamePlaces s (s.modCar c fun k => { k with monitor := { k.monitor with presence := some s.now } }) :=
        samePlaces_modCar c (by simp) s
      exact hrun.trans (by simp [SamePlaces])
    · exact .refl s
  · exact .refl s

theorem samePlaces_modSenseChange (c : Carrier) : SamePlaces s (modSenseChange c s) := by
  have hpin := samePlaces_modCar c (f := fun k => { k with modPin := !k.modPin }) (fun k => ⟨rfl, rfl⟩) s
  unfold modSenseChange takeSample
  dsimp only
  split
  · split
    · split
      · exact hpin.trans (by simp [SamePlaces])
      · exact hpin
    · exact hpin
  · exact hpin

theorem samePlaces_loadSettleEnd : SamePlaces s (loadSettleEnd s) := by
  unfold loadSettleEnd
  split
  · have hkey := (samePlaces_modCar s.probe.carrier (f := fun k => { k with
        key := .probe, monitor := { k.monitor with presence := none } }) (fun k => ⟨rfl, rfl⟩) (s.setProbe { s.probe with
      phase := .keyUp, phaseEnd := some (tickAdd s.now ((s.par s.probe.carrier).lead * Config.msTicks))
      words := activeWords s.probe.carrier s }))
    dsimp only
    split
    · exact hkey.trans (by simp [SamePlaces])
    · exact hkey.trans (by simp [SamePlaces])
  · exact .refl s

theorem samePlaces_keyUpEnd : SamePlaces s (keyUpEnd s) := by
  unfold keyUpEnd
  split <;> simp [SamePlaces]

theorem samePlaces_probeEmission : SamePlaces s (probeEmission s) := by
  unfold probeEmission
  split
  · split <;> simp [SamePlaces]
  · exact .refl s

theorem samePlaces_edgeWindowClose : SamePlaces s (edgeWindowClose s) := by
  unfold edgeWindowClose
  split
  · split <;> simp [SamePlaces]
  · exact .refl s

theorem samePlaces_probePhaseEnd : SamePlaces s (probePhaseEnd s) := by
  unfold probePhaseEnd
  split <;> simp [SamePlaces]

theorem samePlaces_keyDownEnd : SamePlaces s (keyDownEnd s) := by
  unfold keyDownEnd
  split <;> exact .refl s

theorem samePlaces_loadReturnEnd : SamePlaces s (loadReturnEnd s) := by
  have hload := samePlaces_modCar s.probe.carrier (f := fun k => { k with load := false }) (fun k => ⟨rfl, rfl⟩) s
  unfold loadReturnEnd
  dsimp only
  split_ifs
  · exact hload.trans (by simp [SamePlaces])
  · exact hload.trans (by simp [SamePlaces])
  · exact hload.trans (by simp [SamePlaces])
  · exact .refl s

theorem samePlaces_observeEnd : SamePlaces s (observeEnd s) := by
  unfold observeEnd
  split <;> simp [SamePlaces]

theorem samePlaces_link (l : Link) : SamePlaces s (s.setLink l) := by simp [SamePlaces]

theorem samePlaces_syncWordMatch (p : Port) (w : BitVec 16) : SamePlaces s (syncWordMatch p w s) := by
  unfold syncWordMatch
  split
  · split
    · split <;> exact .refl s
    · split <;> exact .refl s
  · exact .refl s

theorem samePlaces_downFrameRelay (f : Frame) : SamePlaces s (downFrameRelay f s) := by
  unfold downFrameRelay offerRelay
  dsimp only
  split
  · split <;> exact .refl s
  · exact .refl s

theorem samePlaces_transmits : SamePlaces s (repeatTxStart s) ∧ SamePlaces s (repeatTxEnd s) ∧ SamePlaces s (upTxStart s) ∧
    SamePlaces s (upTxEnd s) := by
  unfold repeatTxStart repeatTxEnd upTxStart upTxEnd
  refine ⟨?_, ?_, ?_, ?_⟩
  · split <;> exact .refl s
  · split <;> exact .refl s
  · split
    · split <;> exact .refl s
    · exact .refl s
  · split <;> exact .refl s

end

/-! ### All of them -/

/-- The commands that move a record, a claim, a store block, an on-air or incoming batch or a stack entry. -/
def movesBatches : Instr → Bool
  | .powerOn _ | .resetPin _ | .clockLost | .epochPulse | .holdoverEpochStart | .batchHeader _ | .batchBlock _ | .cancel _
  | .restart _ | .currentCycleAdvance _ | .slotDecision _ | .symbolEmit _ | .payloadEnd _ => true
  | _ => false

/-- Every other command leaves them. -/
theorem exec_samePlaces {i : Instr} {s t : State} (hi : movesBatches i = false) (he : exec i s = .next t) : SamePlaces s t := by
  have request {owner : List Byte → State → Answer} (ho : ∀ body s, SamePlaces s (owner body s).state) (kind : Byte) (len : Nat)
      (f : RxFrame) : SamePlaces s (receiveUp kind (takeRequest len owner) f s) :=
    (samePlaces_frameSafe s).request kind len (fun body _ h => h.trans (ho body _)) f (.refl s)
  cases i <;> (injection he with he; subst he)
  case timeMark f =>
    exact (samePlaces_frameSafe s).traffic _ _ _ (fun body _ h => h.trans (samePlaces_ownerTimeMark body _)) f (.refl s)
  case unknownRequest k f =>
    show SamePlaces s (unknownRequest k f s)
    unfold unknownRequest
    split
    · exact request (fun _ => .refl) _ _ f
    · exact .refl s
  case loadSite f => exact request samePlaces_ownerLoadSite _ _ f
  case enableService f => exact request samePlaces_ownerEnableService _ _ f
  case status f => exact request (fun _ => .refl) _ _ f
  case counters f => exact request samePlaces_ownerCounters _ _ f
  case clearAlarms f => exact request samePlaces_ownerClearAlarms _ _ f
  case loadAlign f => exact request samePlaces_ownerLoadAlign _ _ f
  case commitAlign f => exact request samePlaces_ownerCommitAlign _ _ f
  case readAlign f => exact request samePlaces_ownerReadAlign _ _ f
  case epochSet f => exact request samePlaces_ownerEpochSet _ _ f
  case schedule f => exact request samePlaces_ownerSchedule _ _ f
  case standby f => exact request samePlaces_ownerStandby _ _ f
  case markerLoad f => exact request samePlaces_ownerMarkerLoad _ _ f
  case markerClear f => exact request samePlaces_ownerMarkerClear _ _ f
  case probeStart f => exact request samePlaces_ownerProbeStart _ _ f
  case probeAbort f => exact request samePlaces_ownerProbeAbort _ _ f
  case probeResult f => exact request samePlaces_ownerProbeResult _ _ f
  case guardTest f => exact request samePlaces_ownerGuardTest _ _ f
  case clockReturn => exact samePlaces_clockReturn s
  case referenceClockEdge => exact samePlaces_clockEdge s
  case tableRoll => exact samePlaces_tableRoll s
  case keyUp c => exact samePlaces_keyUp s c
  case tailExpiry c => exact samePlaces_tailExpiry s c
  case wakeExpiry c => exact samePlaces_wakeExpiry s c
  case slotEnd c => exact samePlaces_slotEnd s c
  case rfSenseChange c p => exact samePlaces_rfSenseChange s c p
  case stuckCarrier c => exact samePlaces_stuckCarrier s c
  case modSenseChange c => exact samePlaces_modSenseChange s c
  case loadSettleEnd => exact samePlaces_loadSettleEnd s
  case keyUpEnd => exact samePlaces_keyUpEnd s
  case probeEmission => exact samePlaces_probeEmission s
  case edgeWindowClose => exact samePlaces_edgeWindowClose s
  case probePhaseEnd => exact samePlaces_probePhaseEnd s
  case keyDownEnd => exact samePlaces_keyDownEnd s
  case loadReturnEnd => exact samePlaces_loadReturnEnd s
  case observeEnd => exact samePlaces_observeEnd s
  case downFrameRelay f => exact samePlaces_downFrameRelay s f
  case syncWordMatch p w => exact samePlaces_syncWordMatch s p w
  case repeatTxStart => exact (samePlaces_transmits s).1
  case repeatTxEnd => exact (samePlaces_transmits s).2.1
  case upTxStart => exact (samePlaces_transmits s).2.2.1
  case upTxEnd => exact (samePlaces_transmits s).2.2.2
  all_goals cases hi

/-- Settles O7. A command that moves batches keeps the account by its own lemma, every other by leaving them where they are. -/
theorem stepKeepsBlocksAccounted : Obligations.StepKeepsBlocksAccounted := by
  unfold Obligations.StepKeepsBlocksAccounted
  intro s t h hs
  refine step_keeps (P := BlocksAccounted) (fun _ _ h => h) (fun i s t h he => ?_) h hs
  by_cases hi : movesBatches i = false
  · exact (exec_samePlaces hi he).blocksAccounted h
  have hF := blocksAccounted_frameSafe
  have hT := blocksAccounted_tableSafe
  cases i <;> first | exact absurd rfl hi | (injection he with he; subst he)
  case powerOn straps => exact blocksAccounted_resetPart straps .powerOn s
  case resetPin straps => exact blocksAccounted_resetPart straps .resetPin s
  case clockLost => exact hT.clockLost h
  case epochPulse => exact hT.epochPulse h
  case holdoverEpochStart => exact hT.holdoverStart h
  case batchHeader f => exact hF.traffic _ _ _ (fun body _ => blocksAccounted_ownerHeader body) f h
  case batchBlock f => exact hF.traffic _ _ _ (fun body _ => blocksAccounted_ownerBlock body) f h
  case cancel f => exact hF.traffic _ _ _ (fun body _ => hT.ownerCancel body) f h
  case restart f => exact hF.request _ _ (fun body _ => hT.ownerRestart body) f h
  case currentCycleAdvance c => exact hT.currentCycleAdvance c h
  case slotDecision c => exact hT.slotDecision c h
  case symbolEmit c => exact hT.symbolEmit c h
  case payloadEnd c => exact hT.payloadEnd c h

end Sys2Proof.Machine
end

section
/-! The Scheduler's operations keep the agreement with the Batch Table: claims placed and consumed, batches pushed, stopped and
brought on air (R61, R62, R69, R87 to R96). -/

namespace Sys2Proof.Machine

open Sys2Proof.Safety

/-! ### Claim maps (R61, R62) -/

/-- New claim maps of one carrier, whose claims are all good ones, keep the agreement. -/
theorem scheduled_setMaps {s : State} (h : Scheduled s) (c : Carrier) (m : ClaimMaps)
    (hl : m.label = none → EmptyMap m.current ∧ EmptyMap m.next)
    (hm : ∀ n, m.label = some n → ∀ (i : Fin 32) (id : BatchId),
      (m.current.get i = some id → ∃ b, findBatch id s = some b ∧ b.carrier = c ∧ b.start = i ∧ b.cycle = n ∧
        (b.state = .pending ∨ b.state = .complete) ∧ (s.car c).sched.incoming ≠ some id) ∧
      (m.next.get i = some id → ∃ b, findBatch id s = some b ∧ b.carrier = c ∧ b.start = i ∧ b.cycle = n + 1 ∧
        (b.state = .pending ∨ b.state = .complete) ∧ (s.car c).sched.incoming ≠ some id)) :
    Scheduled (setMaps c m s) := by
  refine ⟨h.1, fun d => ?_⟩
  obtain ⟨hclaims, hplaced⟩ := h.2 d
  have hf (id : BatchId) : findBatch id (setMaps c m s) = findBatch id s := findBatch_congr (by simp) id
  unfold ClaimsPlaced BatchesPlaced at *
  simp only [hf, (setMaps_car c m s d).1]
  refine ⟨?_, by simpa using hplaced⟩
  by_cases hd : d = c
  · subst hd
    rw [show ((setMaps d m s).car d).maps = m by simp [setMaps]]
    exact ⟨hl, hm⟩
  · rw [show (setMaps c m s).car d = s.car d by simp [hd]]
    exact hclaims

theorem scheduled_endStale (c : Carrier) (ids : List BatchId) {s : State} (h : Scheduled s) : Scheduled (endStale c ids s) := by
  induction ids generalizing s with
  | nil => exact h
  | cons id ids ih => exact ih (scheduled_endBatch (scheduled_assignByRun h c .noTiming id) id .noTiming)

/-- The end of a batch leaves the label of every carrier's maps, and no claim it did not find. -/
theorem endBatch_maps (id : BatchId) (why : EndReason) (s : State) (d : Carrier) :
    ((endBatch id why s).car d).maps.label = (s.car d).maps.label ∧ ∀ (i : Fin 32) (x : BatchId),
      (((endBatch id why s).car d).maps.current.get i = some x → (s.car d).maps.current.get i = some x) ∧
      (((endBatch id why s).car d).maps.next.get i = some x → (s.car d).maps.next.get i = some x) := by
  cases hf : findBatch id s with
  | none => rw [endBatch_none hf]; exact ⟨rfl, fun _ _ => ⟨fun hx => hx, fun hx => hx⟩⟩
  | some b =>
    obtain ⟨-, -, -, hcar, hother⟩ := endBatch_some hf why
    by_cases hd : d = b.carrier
    · subst hd
      rw [hcar]
      exact ⟨rfl, fun i x => ⟨fun hx => (clearClaim_get.1 hx).1, fun hx => (clearClaim_get.1 hx).1⟩⟩
    · rw [hother d hd]
      exact ⟨rfl, fun _ _ => ⟨fun hx => hx, fun hx => hx⟩⟩

theorem endStale_label (c : Carrier) (ids : List BatchId) (s : State) (d : Carrier) :
    ((endStale c ids s).car d).maps.label = (s.car d).maps.label := by
  induction ids generalizing s with
  | nil => rfl
  | cons id ids ih =>
    refine (ih _).trans ((endBatch_maps _ _ _ d).1.trans ?_)
    simp

theorem scheduled_bringMaps (c : Carrier) {s : State} (h : Scheduled s) : Scheduled (bringMaps c s) := by
  unfold bringMaps
  split
  · exact h
  next n _ =>
  dsimp only
  split_ifs with _ hnext
  · exact h
  · have hs := scheduled_endStale c (claimIds (s.car c).maps.current) h
    have hlabel : ((endStale c (claimIds (s.car c).maps.current) s).car c).maps.label = some (n - 1) := by
      rw [endStale_label, hnext]
    refine scheduled_setMaps hs c _ (fun hl => by cases hl) fun k hk i id => ⟨fun hc => ?_, fun hc => ?_⟩
    · obtain rfl : n = k := Option.some.inj hk
      have hplaced := ((hs.2 c).1.2 _ hlabel i id).2 hc
      rwa [BitVec.sub_add_cancel] at hplaced
    · rw [emptyMap_empty i] at hc
      cases hc
  · refine scheduled_setMaps (scheduled_endStale c _ h) c _ (fun hl => by cases hl) fun k _ i id => ⟨fun hc => ?_, fun hc => ?_⟩
    all_goals
      rw [emptyMap_empty i] at hc
      cases hc

theorem scheduled_bringAllMaps {s : State} (h : Scheduled s) : Scheduled (bringAllMaps s) :=
  scheduled_bringMaps _ (scheduled_bringMaps _ (scheduled_bringMaps _ (scheduled_bringMaps _ h)))

/-- With a current cycle, `bringMaps` labels the maps with it. -/
theorem bringMaps_label {c : Carrier} {s : State} {n : CycleNo} (h : currentCycle c s = some n) :
    ((bringMaps c s).car c).maps.label = some n := by
  unfold bringMaps
  rw [h]
  dsimp only
  split_ifs with hl
  · exact hl
  · simp [setMaps]
  · simp [setMaps]

/-! ### An entry of a claim map -/

theorem claimMap_get_set (m : ClaimMap) (i j : Fin 32) (x : Option BatchId) :
    (m.set i.val x i.isLt).get j = if i = j then x else m.get j := by
  simp [Vector.get_eq_getElem, Vector.getElem_set, Fin.ext_iff]

/-! ### Headers (R68, R69) -/

/-- A new record in an empty state of its id stands nowhere on a carrier. -/
theorem scheduled_addBatch {s : State} (h : Scheduled s) {b : Batch} (hb : findBatch b.id s = none) (hp : b.state = .pending)
    (hl : b.blocks.length = b.slots * b.rate.blocks) : Scheduled (addBatch b s) := by
  obtain ⟨hord, hcars⟩ := h
  have hfind (x : BatchId) (y : Batch) (hy : findBatch x s = some y) : findBatch x (addBatch b s) = some y := by
    rw [findBatch_addBatch hb, if_neg, hy]
    rintro rfl
    rw [hb] at hy
    cases hy
  refine ⟨⟨mem_insertRecord_pairwise hord.1 (findBatch_none.1 hb), fun x hx => ?_⟩, fun c => ?_⟩
  · rcases mem_insertRecord.1 hx with rfl | hx
    · exact hl
    · exact hord.2 x hx
  obtain ⟨⟨hnone, hclaims⟩, hlen, hnodup, hrec, hair, hstack, hinc⟩ := hcars c
  have habsent (x : BatchId) : (∃ y, findBatch x s = some y ∧ y.carrier = c) → b.id ≠ x := by
    rintro ⟨y, hy, -⟩ rfl
    rw [hb] at hy
    cases hy
  refine ⟨⟨hnone, fun n hn i id => ⟨fun hc => ?_, fun hc => ?_⟩⟩, hlen, hnodup, fun x hx hxc => ?_, fun id hid => ?_,
    fun id hid => ?_, fun id hid => ?_⟩
  · obtain ⟨y, hy, hrest⟩ := (hclaims n hn i id).1 hc
    exact ⟨y, hfind id y hy, hrest⟩
  · obtain ⟨y, hy, hrest⟩ := (hclaims n hn i id).2 hc
    exact ⟨y, hfind id y hy, hrest⟩
  · rcases mem_insertRecord.1 hx with rfl | hx
    · rw [hp]
      exact ⟨iff_of_false (by simp) fun e => habsent _ (hair _ e) rfl,
        iff_of_false (by simp) fun e => habsent _ (hstack _ e) rfl⟩
    · exact hrec x hx hxc
  · obtain ⟨y, hy, hc⟩ := hair id hid
    exact ⟨y, hfind id y hy, hc⟩
  · obtain ⟨y, hy, hc⟩ := hstack id hid
    exact ⟨y, hfind id y hy, hc⟩
  · obtain ⟨y, hy, hc⟩ := hinc id hid
    exact ⟨y, hfind id y hy, hc⟩

theorem scheduled_replaceClaimant (c : Carrier) (n : CycleNo) (i : Fin 32) {s : State} (h : Scheduled s) :
    Scheduled (replaceClaimant c n i s) := by
  unfold replaceClaimant
  split
  · exact scheduled_endBatch h _ _
  · exact h

/-- A claim of a PENDING record that stands nowhere yet, placed in the map of its cycle (R61). -/
theorem scheduled_placeClaim {s : State} (h : Scheduled s) {c : Carrier} {b : Batch} (hb : findBatch b.id s = some b)
    (hc : b.carrier = c) (hp : b.state = .pending) {m : CycleNo} (hm : (s.car c).maps.label = some m)
    (hn : b.cycle = m ∨ b.cycle = m + 1) :
    Scheduled (s.modCar c fun k => { k with maps := placeClaim b.id b.cycle b.start k.maps }) := by
  obtain ⟨⟨-, hclaims⟩, -, -, -, -, -, hinc⟩ := h.2 c
  have hfresh : (s.car c).sched.incoming ≠ some b.id := by
    intro hi
    obtain ⟨y, hy, -, hstate⟩ := hinc b.id hi
    obtain rfl := Option.some.inj (hb.symm.trans hy)
    rw [hp] at hstate
    rcases hstate with e | e <;> cases e
  have hlabel : (placeClaim b.id b.cycle b.start (s.car c).maps).label = some m := by
    unfold placeClaim
    split <;> exact hm
  refine scheduled_setMaps h c (placeClaim b.id b.cycle b.start (s.car c).maps) (fun hl => by rw [hlabel] at hl; cases hl)
    fun n hl i id => ?_
  obtain rfl : m = n := Option.some.inj (hlabel.symm.trans hl)
  have hold := hclaims m hm i id
  unfold placeClaim
  split
  · next hcur =>
    obtain rfl : m = b.cycle := Option.some.inj (hm.symm.trans hcur)
    refine ⟨fun hx => ?_, hold.2⟩
    rw [claimMap_get_set] at hx
    split at hx
    · next hi =>
      obtain rfl := Option.some.inj hx
      exact ⟨b, hb, hc, hi, rfl, .inl hp, hfresh⟩
    · exact hold.1 hx
  · next hcur =>
    refine ⟨hold.1, fun hx => ?_⟩
    rw [claimMap_get_set] at hx
    split at hx
    · next hi =>
      obtain rfl := Option.some.inj hx
      exact ⟨b, hb, hc, hi, hn.resolve_left fun e => hcur (by rw [hm, e]), .inl hp, hfresh⟩
    · exact hold.2 hx

theorem currentCycle_replaceClaimant (c : Carrier) (n : CycleNo) (i : Fin 32) (s : State) :
    currentCycle c (replaceClaimant c n i s) = currentCycle c s := by
  unfold replaceClaimant
  split
  · simp [currentCycle, startPassed, startSettled, timingAvailable]
  · rfl

theorem scheduled_ownerHeader (body : List Byte) {s : State} (h : Scheduled s) : Scheduled (ownerHeader body s) := by
  unfold ownerHeader
  dsimp only
  split
  · exact h
  next c _ =>
  split
  · exact scheduled_congr (s := s) (by simp) (by simp) (by simp) (by simp) (by simp) h
  · next hd n hv =>
    obtain ⟨hfree, -, m, hm, hn⟩ := judgeHeader_accepted hv
    have hmaps := scheduled_bringMaps c (scheduled_replaceClaimant c n hd.start h)
    have hfree' := findBatch_bringMaps_none c (findBatch_replaceClaimant_none c n hd.start hfree)
    have hadded := scheduled_addBatch hmaps (b := newBatch (headerFrame body).id c hd n) hfree' rfl List.length_replicate
    have hnew := findBatch_addBatch (b := newBatch (headerFrame body).id c hd n) hfree' (headerFrame body).id
    rw [if_pos (by rfl)] at hnew
    have hlabel := bringMaps_label ((currentCycle_replaceClaimant c n hd.start s).trans hm)
    have hplaced := scheduled_placeClaim (b := newBatch (headerFrame body).id c hd n) hadded hnew rfl rfl hlabel hn
    exact scheduled_congr (by simp [acceptHeader, newBatch]) (by simp [acceptHeader, newBatch])
      (by simp [acceptHeader, newBatch]) (by simp [acceptHeader, newBatch]) (by simp [acceptHeader, newBatch]) hplaced

/-! ### Blocks and cancels (R70 to R76) -/

theorem complete_state (now : Tick) (b : Batch) :
    (complete now b).state = b.state ∨ (b.state = .pending ∧ (complete now b).state = .complete) := by
  unfold complete
  split
  · next hc => exact .inr ⟨by simp_all, rfl⟩
  · exact .inl rfl

theorem scheduled_ownerBlock (body : List Byte) {s : State} (h : Scheduled s) : Scheduled (ownerBlock body s) := by
  have hcount (c : Carrier) (u : State) (hu : Scheduled u) : Scheduled (countDiscard c u) :=
    scheduled_congr (by simp) (by simp) (by simp) (by simp) (by simp) hu
  have hfill (now : Tick) (k : BlockFrame) (b : Batch) := complete_state now (recordLast k b)
  unfold ownerBlock
  dsimp only
  split
  · exact h
  · split_ifs
    · exact hcount _ _ (scheduled_modBatch h _ (fun b => ⟨rfl, rfl, rfl, rfl⟩) (fun b => ⟨rfl, rfl, rfl⟩) fun b => .inl rfl)
    · refine hcount _ _ (scheduled_modBatch h _ (fun b => by simp) (fun b => by simp) fun b => ?_)
      simpa using hfill s.now (blockFrame body) b
    · split
      · exact hcount _ _ (scheduled_modBatch h _ (fun b => ⟨rfl, rfl, rfl, rfl⟩) (fun b => ⟨rfl, rfl, rfl⟩) fun b => .inl rfl)
      · next n _ =>
        have hu : Scheduled (allocate n (blockFrame body).id (blockFrame body).index (blockFrame body).codes s) :=
          scheduled_congr (s := s) (by simp) (by simp) (by simp) (by simp) (by simp) h
        refine scheduled_modBatch hu _ (fun b => by simp) (fun b => by simp) fun b => ?_
        simpa using hfill s.now (blockFrame body) { b with blocks := b.blocks.set (blockFrame body).index (some n) }

theorem scheduled_assignByRun_endBatch (c : Carrier) (k : OutcomeCode) (id : BatchId) (why : EndReason) {s : State}
    (h : Scheduled s) : Scheduled (endBatch id why (assignByRun c k id s)) :=
  scheduled_endBatch (scheduled_assignByRun h c k id) id why

theorem scheduled_assignCode_endBatch (c : Carrier) (sl : SlotRef) (k : OutcomeCode) (x : Option BatchId) (id : BatchId)
    (why : EndReason) {s : State} (h : Scheduled s) : Scheduled (endBatch id why (assignCode c sl k x s)) :=
  scheduled_endBatch (scheduled_assignCode h c sl k x) id why

theorem scheduled_ownerCancel (body : List Byte) {s : State} (h : Scheduled s) : Scheduled (ownerCancel body s) := by
  unfold ownerCancel
  dsimp only
  split
  · exact h
  have hincoming (b : Batch) (id : BatchId) : Scheduled (if (s.car b.carrier).sched.incoming = some id
      then endBatch id .cancelled (assignByRun b.carrier .cancelled id s) else endBatch id .cancelled s) := by
    split
    · exact scheduled_assignByRun_endBatch _ _ _ _ h
    · exact scheduled_endBatch h _ _
  split
  · exact scheduled_modBatch h _ (fun b => ⟨rfl, rfl, rfl, rfl⟩) (fun b => ⟨rfl, rfl, rfl⟩) fun b => .inl rfl
  · exact scheduled_assignByRun_endBatch _ _ _ _ h
  · exact hincoming _ _
  · exact hincoming _ _

/-! ### Push and stop (R92, R94) -/

theorem modSched_sched (c : Carrier) (f : Scheduler → Scheduler) (s : State) (d : Carrier) :
    ((modSched c f s).car d).sched = if d = c then f (s.car d).sched else (s.car d).sched := by
  simp only [modSched, State.modCar_car]
  split <;> simp_all

/-- A change of a Scheduler outside its on-air batch, its incoming batch and its stack keeps the agreement. -/
theorem scheduled_modSched {s : State} (h : Scheduled s) (c : Carrier) {f : Scheduler → Scheduler}
    (hf : ∀ x, (f x).onAir = x.onAir ∧ (f x).incoming = x.incoming ∧ (f x).stack = x.stack) : Scheduled (modSched c f s) := by
  have hs (d : Carrier) : ((modSched c f s).car d).sched.onAir = (s.car d).sched.onAir ∧
      ((modSched c f s).car d).sched.incoming = (s.car d).sched.incoming ∧
      ((modSched c f s).car d).sched.stack = (s.car d).sched.stack := by
    rw [modSched_sched]
    split
    · exact hf _
    · exact ⟨rfl, rfl, rfl⟩
  exact scheduled_congr (by simp) (by simp) (fun d => (hs d).1) (fun d => (hs d).2.1) (fun d => (hs d).2.2) h

theorem scheduled_displaceOldest (c : Carrier) (sl : SlotRef) {s : State} (h : Scheduled s) : Scheduled (displaceOldest c sl s) := by
  unfold displaceOldest
  split
  · split
    · exact scheduled_assignCode_endBatch _ _ _ _ _ _ h
    · exact h
  · exact h

/-- With a batch on air, `displaceOldest` leaves it there and makes room on the stack (R94). -/
theorem displaceOldest_room {c : Carrier} {id : BatchId} {s : State} (h : Scheduled s) (ha : (s.car c).sched.onAir = some id)
    (sl : SlotRef) : ((displaceOldest c sl s).car c).sched.onAir = some id ∧
      ((displaceOldest c sl s).car c).sched.stack.length ≤ 3 := by
  obtain ⟨-, hlen, hnodup, hrec, hair, hstack, -⟩ := h.2 c
  unfold displaceOldest
  split
  · next hfull =>
    split
    · next x hx =>
      have hmem : x ∈ (s.car c).sched.stack := List.mem_of_getLast? hx
      obtain ⟨b, hb, hc⟩ := hstack x hmem
      obtain ⟨rfl, hbs⟩ := findBatch_some hb
      have hne : id ≠ b.id := by
        rintro rfl
        have h1 := (hrec b hbs hc).1.2 ha
        have h2 := (hrec b hbs hc).2.2 hmem
        rw [h1] at h2
        cases h2
      have hf : findBatch b.id (assignCode c sl .displaced (some b.id) s) = some b := (findBatch_congr (by simp) _).trans hb
      obtain ⟨-, -, -, hcar, -⟩ := endBatch_some hf .displaced
      rw [hc] at hcar
      rw [hcar]
      refine ⟨by simp [dropFromCarrier, ha, hne], ?_⟩
      have hlt : ((s.car c).sched.stack.filter fun y => y ≠ b.id).length < (s.car c).sched.stack.length :=
        List.length_filter_lt_length_iff_exists.2 ⟨b.id, hmem, by simp⟩
      simp only [dropFromCarrier, assignCode_car]
      omega
    · next hx =>
      rw [List.getLast?_eq_none_iff] at hx
      rw [hx]
      exact ⟨ha, by simp⟩
  · next hroom => exact ⟨ha, by simp only [Config.stackDepth] at hroom; omega⟩

/-- The on-air batch SUSPENDED on top of a stack that has room (R94). -/
theorem scheduled_suspend {c : Carrier} {id : BatchId} {s : State} (h : Scheduled s) (ha : (s.car c).sched.onAir = some id)
    (hroom : (s.car c).sched.stack.length ≤ 3) :
    Scheduled (modSched c (fun x => { x with onAir := none, stop := none, stack := id :: x.stack })
      (modBatch id (fun b => { b with state := .suspended }) s)) := by
  set t := modSched c (fun x => { x with onAir := none, stop := none, stack := id :: x.stack })
    (modBatch id (fun b => { b with state := .suspended }) s) with ht
  have hfind (x : BatchId) : findBatch x t =
      if x = id then (findBatch x s).map (fun b => { b with state := .suspended }) else findBatch x s :=
    (findBatch_congr (by simp [ht]) x).trans (findBatch_modBatch (f := fun b => { b with state := .suspended }) (fun _ => rfl) s x)
  have hord : TableOrdered t := tableOrdered_modBatch h.1 id (f := fun b => { b with state := .suspended }) fun b => ⟨rfl, rfl, rfl, rfl⟩
  have hmem (b : Batch) (hb : b ∈ t.batches) : ∃ a ∈ s.batches, b = if a.id = id then { a with state := .suspended } else a := by
    rw [show t.batches = s.batches.map fun b => if b.id = id then { b with state := .suspended } else b by simp [ht, modBatch]] at hb
    obtain ⟨a, ha, rfl⟩ := List.mem_map.1 hb
    exact ⟨a, ha, rfl⟩
  obtain ⟨a, hfa, hac⟩ := (h.2 c).2.2.2.2.1 id ha
  obtain ⟨rfl, hat⟩ := findBatch_some hfa
  have hair : a.state = .onAir := ((h.2 c).2.2.2.1 a hat hac).1.2 ha
  have hkept (x : BatchId) (d : Carrier) : (∃ b, findBatch x s = some b ∧ b.carrier = d) →
      ∃ b, findBatch x t = some b ∧ b.carrier = d := by
    rintro ⟨b, hb, hd⟩
    rw [hfind]
    split
    · exact ⟨{ b with state := .suspended }, by rw [hb]; rfl, hd⟩
    · exact ⟨b, hb, hd⟩
  have hother (x : BatchId) (b : Batch) (hb : findBatch x s = some b) (hs : b.state ≠ .onAir) : findBatch x t = some b := by
    rw [hfind, if_neg, hb]
    rintro rfl
    obtain rfl := Option.some.inj (hfa.symm.trans hb)
    exact hs hair
  refine ⟨hord, fun d => ?_⟩
  obtain ⟨⟨hnone, hclaims⟩, hlen, hnodup, hrec, hon, hstack, hinc⟩ := h.2 d
  have hmaps : (t.car d).maps = (s.car d).maps := by simp [ht]
  have hinc' : (t.car d).sched.incoming = (s.car d).sched.incoming := by
    rw [ht, modSched_sched]
    split <;> simp
  have hclaim (x : BatchId) (i : Fin 32) (n : CycleNo) (hx : ∃ b, findBatch x s = some b ∧ b.carrier = d ∧ b.start = i ∧
      b.cycle = n ∧ (b.state = .pending ∨ b.state = .complete) ∧ (s.car d).sched.incoming ≠ some x) :
      ∃ b, findBatch x t = some b ∧ b.carrier = d ∧ b.start = i ∧ b.cycle = n ∧
        (b.state = .pending ∨ b.state = .complete) ∧ (t.car d).sched.incoming ≠ some x := by
    obtain ⟨b, hb, h1, h2, h3, h4, h5⟩ := hx
    exact ⟨b, hother x b hb (by rcases h4 with e | e <;> rw [e] <;> decide), h1, h2, h3, h4, hinc' ▸ h5⟩
  have hclaimsPlaced : ClaimsPlaced d t := by
    unfold ClaimsPlaced
    rw [hmaps]
    exact ⟨hnone, fun n hn i x => ⟨fun hx => hclaim x i n ((hclaims n hn i x).1 hx), fun hx => hclaim x i _ ((hclaims n hn i x).2 hx)⟩⟩
  have hincoming (x : BatchId) (hx : (t.car d).sched.incoming = some x) :
      ∃ b, findBatch x t = some b ∧ b.carrier = d ∧ (b.state = .complete ∨ b.state = .suspended) := by
    obtain ⟨b, hb, hd, hs⟩ := hinc x (hinc' ▸ hx)
    exact ⟨b, hother x b hb (by rcases hs with e | e <;> rw [e] <;> decide), hd, hs⟩
  refine ⟨hclaimsPlaced, ?_⟩
  by_cases hd : d = c
  · subst hd
    have hsched : (t.car d).sched = { (s.car d).sched with onAir := none, stop := none, stack := a.id :: (s.car d).sched.stack } := by
      rw [ht, modSched_sched, if_pos rfl]
      simp
    have hfresh : a.id ∉ (s.car d).sched.stack := fun hm => by
      have hsusp := (hrec a hat hac).2.2 hm
      rw [hair] at hsusp
      cases hsusp
    unfold BatchesPlaced
    refine ⟨?_, ?_, fun b hb hbd => ?_, ?_, ?_, hincoming⟩
    · rw [hsched]; exact Nat.succ_le_succ hroom
    · rw [hsched]; exact List.nodup_cons.2 ⟨hfresh, hnodup⟩
    · rw [hsched]
      obtain ⟨x, hx, rfl⟩ := hmem b hb
      split at hbd
      · next hid =>
        rw [if_pos hid]
        exact ⟨by simp, by simp [hid]⟩
      · next hid =>
        rw [if_neg hid]
        obtain ⟨hxo, hxs⟩ := hrec x hx hbd
        refine ⟨?_, by rw [hxs]; simp [hid]⟩
        rw [hxo, ha]
        simp [Ne.symm hid]
    · rw [hsched]; exact fun x hx => by cases hx
    · rw [hsched]
      intro x hx
      rcases List.mem_cons.1 hx with rfl | hx
      · exact hkept _ _ ⟨a, hfa, hac⟩
      · exact hkept x d (hstack x hx)
  · have hsched : (t.car d).sched = (s.car d).sched := by
      rw [ht, modSched_sched, if_neg hd]
      simp
    unfold BatchesPlaced
    rw [hsched] at hincoming ⊢
    refine ⟨hlen, hnodup, fun b hb hbd => ?_, fun x hx => hkept x d (hon x hx), fun x hx => hkept x d (hstack x hx), hincoming⟩
    obtain ⟨x, hx, rfl⟩ := hmem b hb
    have hid : x.id ≠ a.id := by
      intro e
      rw [if_pos e] at hbd
      have := findBatch_of_mem h.1 hx
      rw [e, hfa] at this
      obtain rfl := Option.some.inj this
      exact hd (hbd.symm.trans hac)
    rw [if_neg hid] at hbd ⊢
    exact hrec x hx hbd

theorem scheduled_pushOnAir {c : Carrier} {id : BatchId} {s : State} (h : Scheduled s) (ha : (s.car c).sched.onAir = some id)
    (sl : SlotRef) : Scheduled (pushOnAir c sl id s) :=
  scheduled_suspend (scheduled_displaceOldest c sl h) (displaceOldest_room h ha sl).1 (displaceOldest_room h ha sl).2

theorem scheduled_stopBatch (c : Carrier) (sl : SlotRef) (id : BatchId) (why : StopReason) {s : State} (h : Scheduled s) :
    Scheduled (stopBatch c sl id why s) := by
  unfold stopBatch
  dsimp only
  split
  · exact scheduled_modSched (scheduled_assignCode h _ _ _ _) c fun x => ⟨rfl, rfl, rfl⟩
  · exact scheduled_assignCode_endBatch _ _ _ _ _ _ h

/-! ### What may go on air (R91, R93, R96) -/

/-- Batch `id` may go on air on carrier `c`: no claim of the carrier is its, and its record, while it stands, is a COMPLETE or
SUSPENDED one of the carrier. -/
def MayStart (c : Carrier) (id : BatchId) (s : State) : Prop :=
  (∀ i : Fin 32, (s.car c).maps.current.get i ≠ some id ∧ (s.car c).maps.next.get i ≠ some id) ∧
    ∀ b, findBatch id s = some b → b.carrier = c ∧ (b.state = .complete ∨ b.state = .suspended)

theorem mayStart_congr {c : Carrier} {id : BatchId} {s t : State} (hb : t.batches = s.batches)
    (hm : (t.car c).maps = (s.car c).maps) (h : MayStart c id s) : MayStart c id t := by
  unfold MayStart at *
  rw [hm, findBatch_congr hb]
  exact h

theorem mayStart_endBatch {c : Carrier} {id : BatchId} {s : State} (h : MayStart c id s) (x : BatchId) (why : EndReason) :
    MayStart c id (endBatch x why s) := by
  have hmaps := (endBatch_maps x why s c).2
  refine ⟨fun i => ⟨fun hi => (h.1 i).1 ((hmaps i id).1 hi), fun hi => (h.1 i).2 ((hmaps i id).2 hi)⟩, fun b hb => ?_⟩
  rw [findBatch_endBatch] at hb
  split at hb
  · cases hb
  · exact h.2 b hb

theorem mayStart_assignCode_endBatch {c d : Carrier} {id : BatchId} {s : State} (h : MayStart c id s) (sl : SlotRef)
    (k : OutcomeCode) (y : Option BatchId) (x : BatchId) (why : EndReason) : MayStart c id (endBatch x why (assignCode d sl k y s)) :=
  mayStart_endBatch (mayStart_congr (s := s) (by simp) (by simp) h) x why

theorem mayStart_stopBatch {c d : Carrier} {id : BatchId} {s : State} (h : MayStart c id s) (sl : SlotRef) (x : BatchId)
    (why : StopReason) : MayStart c id (stopBatch d sl x why s) := by
  unfold stopBatch
  dsimp only
  split
  · exact mayStart_congr (s := s) (by simp) (by simp) h
  · exact mayStart_assignCode_endBatch h _ _ _ _ _

theorem mayStart_pushOnAir {c d : Carrier} {id : BatchId} {s : State} (h : MayStart c id s) (sl : SlotRef) (x : BatchId) :
    MayStart c id (pushOnAir d sl x s) := by
  have hd : MayStart c id (displaceOldest d sl s) := by
    unfold displaceOldest
    split
    · split
      · exact mayStart_assignCode_endBatch h _ _ _ _ _
      · exact h
    · exact h
  refine mayStart_congr (s := modBatch x (fun b => { b with state := .suspended }) (displaceOldest d sl s)) (by simp [pushOnAir])
    (by simp [pushOnAir]) ⟨fun i => ?_, fun b hb => ?_⟩
  · rw [(modBatch_keeps _ _ _).2.2.2.2.2.2.2.2.2.2.2 c]
    exact hd.1 i
  · rw [findBatch_modBatch (f := fun b => { b with state := .suspended }) (fun _ => rfl)] at hb
    split at hb
    · cases hf : findBatch id (displaceOldest d sl s) with
      | none =>
        rw [hf] at hb
        cases hb
      | some a =>
        rw [hf] at hb
        obtain rfl := Option.some.inj hb
        exact ⟨(hd.2 a hf).1, .inr rfl⟩
    · exact hd.2 b hb

/-- A batch on the stack may be resumed. -/
theorem mayStart_stack {c : Carrier} {id : BatchId} {s : State} (h : Scheduled s) (hid : id ∈ (s.car c).sched.stack) :
    MayStart c id s := by
  obtain ⟨⟨hnone, hclaims⟩, -, -, hrec, -, hstack, -⟩ := h.2 c
  obtain ⟨b, hb, hc⟩ := hstack id hid
  obtain ⟨rfl, hbs⟩ := findBatch_some hb
  have hsusp := (hrec b hbs hc).2.2 hid
  have hunclaimed {i : Fin 32} {n : CycleNo} : ¬ ∃ x, findBatch b.id s = some x ∧ x.carrier = c ∧ x.start = i ∧ x.cycle = n ∧
      (x.state = .pending ∨ x.state = .complete) ∧ (s.car c).sched.incoming ≠ some b.id := by
    rintro ⟨x, hx, -, -, -, hstate, -⟩
    obtain rfl := Option.some.inj (hb.symm.trans hx)
    rw [hsusp] at hstate
    rcases hstate with e | e <;> cases e
  refine ⟨fun i => ?_, fun x hx => ?_⟩
  · cases hl : (s.car c).maps.label with
    | none =>
      obtain ⟨hcur, hnext⟩ := hnone hl
      rw [hcur i, hnext i]
      simp
    | some n => exact ⟨fun hi => hunclaimed ((hclaims n hl i b.id).1 hi), fun hi => hunclaimed ((hclaims n hl i b.id).2 hi)⟩
  · obtain rfl := Option.some.inj (hb.symm.trans hx)
    exact ⟨hc, .inr hsusp⟩

/-- A batch that may go on air becomes the incoming batch (R96). -/
theorem scheduled_incoming {c : Carrier} {id : BatchId} {s : State} (h : Scheduled s) (hm : MayStart c id s)
    (hb : findBatch id s ≠ none) : Scheduled (modSched c (fun x => { x with incoming := some id }) s) := by
  set t := modSched c (fun x => { x with incoming := some id }) s with ht
  refine ⟨h.1, fun d => ?_⟩
  have hfind (x : BatchId) : findBatch x t = findBatch x s := findBatch_congr (by simp [ht]) x
  have hmaps : (t.car d).maps = (s.car d).maps := by simp [ht]
  obtain ⟨⟨hnone, hclaims⟩, hlen, hnodup, hrec, hair, hstack, hinc⟩ := h.2 d
  unfold ClaimsPlaced BatchesPlaced
  simp only [hfind, hmaps]
  by_cases hd : d = c
  · subst hd
    rw [show (t.car d).sched = { (s.car d).sched with incoming := some id } by rw [ht, modSched_sched, if_pos rfl]]
    refine ⟨⟨hnone, fun n hn i x => ⟨fun hx => ?_, fun hx => ?_⟩⟩, hlen, hnodup, hrec, hair, hstack, fun x hx => ?_⟩
    · obtain ⟨b, h1, h2, h3, h4, h5, -⟩ := (hclaims n hn i x).1 hx
      exact ⟨b, h1, h2, h3, h4, h5, fun e => (hm.1 i).1 (Option.some.inj e ▸ hx)⟩
    · obtain ⟨b, h1, h2, h3, h4, h5, -⟩ := (hclaims n hn i x).2 hx
      exact ⟨b, h1, h2, h3, h4, h5, fun e => (hm.1 i).2 (Option.some.inj e ▸ hx)⟩
    · obtain rfl := Option.some.inj hx
      obtain ⟨b, hb⟩ := Option.ne_none_iff_exists'.1 hb
      exact ⟨b, hb, hm.2 b hb⟩
  · rw [show (t.car d).sched = (s.car d).sched by rw [ht, modSched_sched, if_neg hd]]
    exact ⟨⟨hnone, hclaims⟩, hlen, hnodup, hrec, hair, hstack, hinc⟩

theorem scheduled_bringOnAir {c : Carrier} {id : BatchId} {s : State} (h : Scheduled s) (hm : MayStart c id s)
    (hb : findBatch id s ≠ none) : Scheduled (bringOnAir c id s) :=
  scheduled_handOver (scheduled_incoming h hm hb) c

/-! ### A slot's claim consumed (R61, R87) -/

theorem scheduled_consumeClaim (c : Carrier) (sl : SlotRef) {s : State} (h : Scheduled s) : Scheduled (consumeClaim c sl s) := by
  unfold consumeClaim
  dsimp only
  split
  · next hl =>
    refine scheduled_setMaps h c _ (fun hn => by rw [hl] at hn; cases hn) fun n hn i id => ?_
    obtain ⟨hcur, hnext⟩ := (h.2 c).1.2 n hn i id
    refine ⟨fun hi => ?_, hnext⟩
    rw [claimMap_get_set] at hi
    split at hi
    · cases hi
    · exact hcur hi
  · exact h

/-- A COMPLETE claimant whose claim is consumed may go on air: its claim stood at its start slot only. -/
theorem mayStart_claimant {c : Carrier} {sl : SlotRef} {b : Batch} {s : State} (h : Scheduled s)
    (hb : slotClaimant c sl s = some b) (hs : b.state = .complete) : MayStart c b.id (consumeClaim c sl s) := by
  unfold slotClaimant at hb
  split at hb
  case isFalse => cases hb
  next hl =>
  obtain ⟨id, hclaim, hfind⟩ := Option.bind_eq_some_iff.1 hb
  obtain ⟨rfl, -⟩ := findBatch_some hfind
  have hclaims := (h.2 c).1.2 _ hl
  obtain ⟨x, hx, hc, hstart, hcycle, -⟩ := (hclaims sl.index b.id).1 hclaim
  obtain rfl := Option.some.inj (hfind.symm.trans hx)
  unfold consumeClaim
  rw [if_pos hl]
  refine ⟨fun i => ⟨fun hi => ?_, fun hi => ?_⟩, fun y hy => ?_⟩
  · rw [show ((setMaps c _ s).car c).maps = _ from (congrArg CarrierState.maps (State.modCar_car_same ..))] at hi
    rw [claimMap_get_set] at hi
    split at hi
    · cases hi
    · next hne =>
      obtain ⟨y, hy, -, hi', -⟩ := (hclaims i b.id).1 hi
      obtain rfl := Option.some.inj (hfind.symm.trans hy)
      exact hne (hstart.symm.trans hi')
  · rw [show ((setMaps c _ s).car c).maps = _ from (congrArg CarrierState.maps (State.modCar_car_same ..))] at hi
    obtain ⟨y, hy, -, -, hn, -⟩ := (hclaims i b.id).2 hi
    obtain rfl := Option.some.inj (hfind.symm.trans hy)
    rw [hcycle] at hn
    have := congrArg BitVec.toNat hn
    bv_omega
  · rw [findBatch_congr (s := s) (by simp)] at hy
    obtain rfl := Option.some.inj (hfind.symm.trans hy)
    exact ⟨hc, .inl hs⟩

end Sys2Proof.Machine
end

section
/-! Every step keeps the Batch Manager and the Scheduler in agreement (O8): the decisions fix only programs that may go on air,
and the other commands go through the operations' own laws. -/

namespace Sys2Proof.Machine

open Sys2Proof.Safety

/-! ### The decision steps (R87 to R96) -/

/-- A program that starts or resumes a batch names one that may go on air. -/
def Fits (c : Carrier) (p : Program) (s : State) : Prop := ∀ id, p = .start id ∨ p = .resume id → MayStart c id s

/-- The program fixed so far, if any, fits. -/
def FitsFixed (c : Carrier) (p : Option Program) (s : State) : Prop := ∀ q, p = some q → Fits c q s

theorem fitsFixed_none (c : Carrier) (s : State) : FitsFixed c none s := fun _ h => by cases h

theorem fits_other {c : Carrier} {p : Program} {s : State} (h : (∀ id, p ≠ .start id) ∧ ∀ id, p ≠ .resume id) : Fits c p s := by
  rintro id (e | e)
  · exact absurd e (h.1 id)
  · exact absurd e (h.2 id)

/-- The on-air batch's record is the one its id finds. -/
theorem onAirBatch_some {c : Carrier} {s : State} {a : Batch} (h : onAirBatch c s = some a) :
    (s.car c).sched.onAir = some a.id ∧ findBatch a.id s = some a := by
  obtain ⟨id, hid, hf⟩ := Option.bind_eq_some_iff.1 h
  obtain ⟨rfl, -⟩ := findBatch_some hf
  exact ⟨hid, hf⟩

theorem rival_some {c : Carrier} {s : State} {a : Batch} (h : rival c s = some a) : onAirBatch c s = some a := by
  unfold rival at h
  split at h
  · next x hx =>
    split at h
    · rw [hx, h]
    · cases h
  · cases h

theorem scheduled_gateHolds (c : Carrier) (sl : SlotRef) (b : Option Batch) (k : OutcomeCode) (why : EndReason) {s : State}
    (h : Scheduled s) : Scheduled (gateHolds c sl b k why s) := by
  cases b with
  | none => exact scheduled_assignCode h _ _ _ _
  | some b => exact scheduled_assignCode_endBatch _ _ _ _ _ _ h

theorem scheduled_markerStep (c : Carrier) (sl : SlotRef) {s : State} (h : Scheduled s) :
    Scheduled (markerStep c sl s).2 ∧ Fits c (markerStep c sl s).1 (markerStep c sl s).2 := by
  have hm : Scheduled (marksOnAir c sl s) := by
    unfold marksOnAir
    split
    · next a ha =>
      split_ifs
      · exact scheduled_stopBatch _ _ _ _ h
      · exact scheduled_pushOnAir h (onAirBatch_some ha).1 sl
      · exact h
    · exact h
  have hpop : Scheduled ((marksOnAir c sl s).modCar c fun k => { k with marker := k.marker.tail }) :=
    (samePlaces_modCar c (by simp) _).scheduled hm
  unfold markerStep
  dsimp only
  split
  · exact ⟨hpop, fits_other (by simp)⟩
  · exact ⟨scheduled_assignCode hpop _ _ _ _, fits_other (by simp)⟩

theorem scheduled_claimantStep (c : Carrier) (sl : SlotRef) (b : Option Batch) {s : State} (h : Scheduled s)
    (hb : ∀ x, b = some x → x.state = .complete → MayStart c x.id s) :
    Scheduled (claimantStep c sl b s).2 ∧ FitsFixed c (claimantStep c sl b s).1 (claimantStep c sl b s).2 := by
  cases b with
  | none => exact ⟨h, fitsFixed_none c s⟩
  | some b =>
    have hdrop (k : OutcomeCode) (why : EndReason) : Scheduled (dropClaimant c sl b k why s) ∧
        FitsFixed c none (dropClaimant c sl b k why s) :=
      ⟨scheduled_assignCode_endBatch _ _ _ _ _ _ h, fitsFixed_none _ _⟩
    have hfits {u : State} (hu : MayStart c b.id u) : FitsFixed c (some (.start b.id)) u := by
      rintro q hq id (e | e)
      · obtain rfl := Option.some.inj hq
        obtain rfl : b.id = id := by injection e
        exact hu
      · obtain rfl := Option.some.inj hq
        cases e
    unfold claimantStep
    dsimp only
    split_ifs with hstate
    · exact hdrop _ _
    · exact hdrop _ _
    · exact hdrop _ _
    · have hmay := hb b rfl (not_not.1 hstate)
      split
      · next a ha =>
        split_ifs
        · exact ⟨scheduled_pushOnAir h (onAirBatch_some (rival_some ha)).1 sl, hfits (mayStart_pushOnAir hmay _ _)⟩
        · exact hdrop _ _
      · exact ⟨h, hfits hmay⟩

theorem scheduled_continueStep (c : Carrier) (sl : SlotRef) (p : Option Program) {s : State} (h : Scheduled s)
    (hp : FitsFixed c p s) :
    Scheduled (continueStep c sl p s).2 ∧ FitsFixed c (continueStep c sl p s).1 (continueStep c sl p s).2 := by
  unfold continueStep
  split
  · exact ⟨h, hp⟩
  · have hstop (x : BatchId) (why : StopReason) : Scheduled (stopBatch c sl x why s) ∧ FitsFixed c p (stopBatch c sl x why s) :=
      ⟨scheduled_stopBatch _ _ _ _ h, fun q hq id hid => mayStart_stopBatch (hp q hq id hid) _ _ _⟩
    split_ifs
    · exact ⟨h, hp⟩
    · exact hstop _ _
    · exact hstop _ _
    · refine ⟨h, fun q hq => ?_⟩
      obtain rfl := Option.some.inj hq
      cases p with
      | none => exact fits_other (by simp)
      | some q => exact hp q rfl

theorem scheduled_resumeStep (c : Carrier) (sl : SlotRef) (ids : List BatchId) {s : State} (h : Scheduled s)
    (hids : ∀ id ∈ ids, MayStart c id s) :
    Scheduled (resumeStep c sl ids s).2 ∧ FitsFixed c (resumeStep c sl ids s).1 (resumeStep c sl ids s).2 := by
  induction ids generalizing s with
  | nil => exact ⟨h, fitsFixed_none c s⟩
  | cons id ids ih =>
    have hrest : ∀ x ∈ ids, MayStart c x s := fun x hx => hids x (List.mem_cons_of_mem _ hx)
    unfold resumeStep
    split
    · split_ifs
      · refine ⟨h, ?_⟩
        rintro q hq x (e | e)
        · obtain rfl := Option.some.inj hq
          cases e
        · obtain rfl := Option.some.inj hq
          obtain rfl : id = x := by injection e
          exact hids id List.mem_cons_self
      · exact ih (scheduled_assignCode_endBatch _ _ _ _ _ _ h) fun x hx => mayStart_assignCode_endBatch (hrest x hx) _ _ _ _ _
    · exact ih h hrest

theorem scheduled_trafficSteps (c : Carrier) (sl : SlotRef) (b : Option Batch) {s : State} (h : Scheduled s)
    (hb : ∀ x, b = some x → x.state = .complete → MayStart c x.id s) :
    Scheduled (trafficSteps c sl b s).2 ∧ Fits c (trafficSteps c sl b s).1 (trafficSteps c sl b s).2 := by
  obtain ⟨h4, f4⟩ := scheduled_claimantStep c sl b h hb
  obtain ⟨h5, f5⟩ := scheduled_continueStep c sl _ h4 f4
  unfold trafficSteps
  dsimp only
  split
  · next p hp => exact ⟨h5, f5 p hp⟩
  · obtain ⟨h6, f6⟩ := scheduled_resumeStep c sl _ h5 fun id hid => mayStart_stack h5 hid
    split
    · next p hp => exact ⟨h6, f6 p hp⟩
    · exact ⟨scheduled_assignCode h6 _ _ _ _, fits_other (by simp)⟩

theorem scheduled_decisionSteps (c : Carrier) (sl : SlotRef) (b : Option Batch) {s : State} (h : Scheduled s)
    (hb : ∀ x, b = some x → x.state = .complete → MayStart c x.id s) :
    Scheduled (decisionSteps c sl b s).2 ∧ Fits c (decisionSteps c sl b s).1 (decisionSteps c sl b s).2 := by
  unfold decisionSteps
  split_ifs
  · exact ⟨scheduled_gateHolds _ _ _ _ _ h, fits_other (by simp)⟩
  · exact ⟨scheduled_gateHolds _ _ _ _ _ h, fits_other (by simp)⟩
  · exact scheduled_markerStep c sl h
  · exact scheduled_trafficSteps c sl b h hb

/-! ### The program taken (R87, R95, R96) -/

theorem scheduled_launchRun (c : Carrier) (sl : SlotRef) (g : Fin 16) (x : RateClass) (k : RunContent) {s : State}
    (h : Scheduled s) : Scheduled (launchRun c sl g x k s) :=
  scheduled_congr (s := s) (by simp) (by simp) (by simp) (by simp) (by simp) h

theorem scheduled_programBatch (c : Carrier) (sl : SlotRef) (b : Batch) {s : State} (h : Scheduled s) :
    Scheduled (programBatch c sl b s) :=
  scheduled_launchRun _ _ _ _ _ (scheduled_modBatch h b.id (fun _ => ⟨rfl, rfl, rfl, rfl⟩) (fun _ => ⟨rfl, rfl, rfl⟩)
    fun _ => .inl rfl)

theorem scheduled_takeProgram (c : Carrier) (sl : SlotRef) {p : Program} {s : State} (h : Scheduled s) (hp : Fits c p s) :
    Scheduled (takeProgram c sl p s) := by
  unfold takeProgram
  split
  · next id =>
    split
    · next b hb =>
      refine scheduled_programBatch c sl b (scheduled_bringOnAir ?_ (mayStart_congr (s := s) (by simp) (by simp) (hp id (.inl rfl))) ?_)
      · exact scheduled_congr (s := s) (by simp) (by simp) (by simp) (by simp) (by simp) h
      · rw [findBatch_congr (s := s) (by simp), hb]
        simp
    · exact h
  · next id =>
    split
    · next b hb => exact scheduled_programBatch c sl b (scheduled_bringOnAir h (hp id (.inr rfl)) (by simp [hb]))
    · exact h
  · split
    · exact scheduled_programBatch c sl _ h
    · exact h
  · exact scheduled_launchRun _ _ _ _ _ h
  · exact h
  · exact h

theorem scheduled_slotDecision (c : Carrier) {s : State} (h : Scheduled s) : Scheduled (slotDecision c s) := by
  unfold slotDecision
  split
  · next sl _ =>
    have hmaps := scheduled_bringMaps c h
    have hopen : Scheduled (openSlot c sl (consumeClaim c sl (bringMaps c s))) :=
      scheduled_modSched (scheduled_consumeClaim c sl hmaps) c fun x => ⟨rfl, rfl, rfl⟩
    obtain ⟨hsteps, hfits⟩ := scheduled_decisionSteps c sl (slotClaimant c sl (bringMaps c s)) hopen fun b hb hs =>
      mayStart_congr (by simp) (by simp) (mayStart_claimant hmaps hb hs)
    have hprogram (p : Program) (u : State) (hu : Scheduled u) (hp : Fits c p u) :
        Scheduled (takeProgram c sl p (setProgram c sl p u)) :=
      scheduled_takeProgram c sl (scheduled_modSched hu c fun x => ⟨rfl, rfl, rfl⟩)
        fun id hid => mayStart_congr (by simp) (by simp) (hp id hid)
    exact hprogram _ _ hsteps hfits
  · exact h

theorem scheduled_currentCycleAdvance (c : Carrier) {s : State} (h : Scheduled s) : Scheduled (currentCycleAdvance c s) := by
  unfold currentCycleAdvance
  split
  · split
    · exact h
    · exact scheduled_bringMaps c h
  · exact scheduled_bringMaps c h

/-! ### Symbols and payload ends (R30, R31, R82, R83) -/

theorem scheduled_guardFault (c : Carrier) (r : Run) (id : BatchId) {s : State} (h : Scheduled s) :
    Scheduled (guardFault c r id s) := by
  have hend : Scheduled (handOver c (endBatch id .cut (releaseNow c (some r.slot) (assignCode c r.slot .guardFault (some id) s)))) :=
    scheduled_handOver (scheduled_endBatch ((releaseNow_both _ _).1 (scheduled_assignCode h _ _ _ _)) _ _) c
  exact scheduled_congr (by simp [guardFault]) (by simp [guardFault]) (by simp [guardFault]) (by simp [guardFault])
    (by simp [guardFault]) hend

theorem scheduled_symbolEmit (c : Carrier) {s : State} (h : Scheduled s) : Scheduled (symbolEmit c s) := by
  have hrun (r : Run) (u : State) (hu : Scheduled u) : Scheduled (advanceRun c r u) :=
    scheduled_congr (s := u) (by simp) (by simp) (by simp) (by simp) (by simp) hu
  have hword (r : Run) (u : State) (hu : Scheduled u) : Scheduled (emitWord c r u) :=
    scheduled_congr (s := u) (by simp) (by simp) (by simp) (by simp) (by simp) hu
  have hclose (r : Run) (id : BatchId) (i : Nat) (u : State) (hu : Scheduled u) : Scheduled (closeBlock c r id i u) := by
    have hspent : Scheduled (spendBlock id i u) :=
      scheduled_congr (s := u) (by simp) (by simp) (by simp) (by simp) (by simp) hu
    unfold closeBlock
    split_ifs
    · exact hrun _ _ (scheduled_congr (s := u) (by simp) (by simp) (by simp) (by simp) (by simp) hu)
    · exact hrun _ _ hspent
    · exact scheduled_guardFault _ _ _ hspent
  unfold symbolEmit
  split
  · split
    · next r _ _ =>
      have hkey : Scheduled (keyFirst c r s) := scheduled_congr (by simp) (by simp) (by simp) (by simp) (by simp) h
      unfold emitSymbol
      split
      · exact hrun _ _ (hword _ _ hkey)
      · split_ifs
        · exact scheduled_guardFault _ _ _ hkey
        · exact hclose _ _ _ _ (hword _ _ hkey)
        · exact hrun _ _ (hword _ _ hkey)
    · exact h
  · exact h

theorem scheduled_settleRun (c : Carrier) (r : Run) {s : State} (h : Scheduled s) : Scheduled (settleRun c r s) := by
  have hend (id : BatchId) (why : EndReason) :
      Scheduled (handOver c (endBatch id why (assignCode c r.slot .sent (some id) s))) :=
    scheduled_handOver (scheduled_assignCode_endBatch _ _ _ _ _ _ h) c
  unfold settleRun
  dsimp only
  split
  · exact scheduled_assignCode h _ _ _ _
  · split_ifs
    · exact h
    · exact hend _ _
    · split
      · exact hend _ _
      · exact scheduled_assignCode h _ _ _ _
    · split <;> exact scheduled_assignCode h _ _ _ _

theorem scheduled_payloadEnd (c : Carrier) {s : State} (h : Scheduled s) : Scheduled (payloadEnd c s) := by
  unfold payloadEnd
  split
  · next r _ =>
    split
    · have hcentre : Scheduled ((modTimer c (fun t => { t with finishing := none }) s).modCar c (centreAfter r)) := by
        refine (samePlaces_modCar c (fun k => ?_) _).scheduled
          (scheduled_congr (s := s) (by simp) (by simp) (by simp) (by simp) (by simp) h)
        unfold centreAfter
        split <;> exact ⟨rfl, rfl⟩
      exact scheduled_congr (startTail_keeps _ _).2.2.1 (by simp) (by simp) (by simp) (by simp) (scheduled_settleRun c r hcentre)
    · exact h
  · exact h

/-! ### Epoch starts, a lost clock, RESTART (R2, R12 to R15, R77 to R79) -/

theorem scheduled_timingLoss {s : State} (h : Scheduled s) : Scheduled (timingLoss s) :=
  (flushAll_spec .noTiming (releaseAll_both.1 (scheduled_congr (by simp) (by simp) (by simp) (by simp) (by simp) h))).1

theorem scheduled_modTracker (f : Tracker → Tracker) {s : State} (h : Scheduled s) : Scheduled (modTracker f s) := h

theorem scheduled_completeStart {s : State} (h : Scheduled s) : Scheduled (completeStart s) := by
  unfold completeStart
  refine scheduled_bringAllMaps (scheduled_congr (startReports_keeps _ _).2.2.1 (by simp) (by simp) (by simp) (by simp) ?_)
  split_ifs
  · exact (renumberingFlush_spec (scheduled_modTracker _ h)).2.2.1
  · exact scheduled_modTracker _ h

theorem scheduled_recordAllOpen {s : State} (h : Scheduled s) : Scheduled (recordAllOpen s) :=
  scheduled_congr (by simp) (by simp) (by simp) (by simp) (by simp) h

theorem scheduled_holdoverStart {s : State} (h : Scheduled s) : Scheduled (holdoverStart s) := by
  unfold holdoverStart
  split
  · have ht : Scheduled (latchIf (s.tracker.ref = .locked) .holdover (modTracker Tracker.holdOver s)) :=
      scheduled_congr (s := s) (by simp) (by simp) (by simp) (by simp) (by simp) h
    have hl : Scheduled (latch .holdoverExpired (timingLoss
        (latchIf (s.tracker.ref = .locked) .holdover (modTracker Tracker.holdOver s)))) :=
      scheduled_congr (by simp) (by simp) (by simp) (by simp) (by simp) (scheduled_timingLoss ht)
    dsimp only
    split_ifs
    · exact scheduled_completeStart ht
    · unfold expireHoldover
      dsimp only
      split_ifs
      · exact scheduled_recordAllOpen (scheduled_completeStart (scheduled_modTracker _ hl))
      · exact scheduled_completeStart (scheduled_modTracker _ (scheduled_recordAllOpen hl))
  · exact h

theorem scheduled_epochPulse {s : State} (h : Scheduled s) : Scheduled (epochPulse s) := by
  have hwindow (f : Tracker → Tracker) :
      Scheduled (if s.tracker.inWindow then completeStart (modTracker f s) else countStrayPulse s) := by
    split
    · exact scheduled_completeStart (scheduled_modTracker _ h)
    · exact h
  unfold epochPulse
  split
  · exact h
  · exact scheduled_completeStart (scheduled_modTracker _ h)
  · exact hwindow _
  · exact hwindow _

theorem scheduled_clockLost {s : State} (h : Scheduled s) : Scheduled (clockLost s) := by
  unfold clockLost
  split
  · exact h
  · exact scheduled_congr (by simp) (by simp) (by simp) (by simp) (by simp) (scheduled_recordAllOpen (scheduled_timingLoss h))

/-- With no record and empty maps and Schedulers, the two agree. -/
theorem scheduled_empty {s : State} (hb : s.batches = []) (h : ∀ c, EmptyMap (s.car c).maps.current ∧
    EmptyMap (s.car c).maps.next ∧ (s.car c).sched.onAir = none ∧ (s.car c).sched.incoming = none ∧
    (s.car c).sched.stack = []) : Scheduled s := by
  refine ⟨⟨by rw [hb]; exact List.Pairwise.nil, fun b hm => by rw [hb] at hm; cases hm⟩, fun c => ?_⟩
  obtain ⟨hcur, hnext, hair, hinc, hstack⟩ := h c
  refine ⟨⟨fun _ => ⟨hcur, hnext⟩, fun n _ i id => ?_⟩, ?_⟩
  · rw [hcur i, hnext i]
    simp
  · unfold BatchesPlaced
    dsimp only
    rw [hair, hinc, hstack, hb]
    simp

theorem scheduled_ownerRestart (body : List Byte) {s : State} (h : Scheduled s) : Scheduled (ownerRestart body s).state := by
  unfold ownerRestart
  split
  · exact h
  · have hr : Scheduled (releaseAll (restartProbe s)) :=
      releaseAll_both.1 (scheduled_congr (by simp) (by simp) (by simp) (by simp) (by simp) h)
    obtain ⟨-, -, hempty⟩ := flushAll_spec .noTiming hr
    refine scheduled_empty (by simp [restartPart, flushAll_batches]) fun c => ?_
    obtain ⟨hcur, hnext, -⟩ := hempty c
    have hcar : ((restartPart s).car c).maps = ((flushAll .noTiming (releaseAll (restartProbe s))).car c).maps ∧
        ((restartPart s).car c).sched.onAir = none ∧ ((restartPart s).car c).sched.incoming = none ∧
        ((restartPart s).car c).sched.stack = [] := by
      simp [restartPart, restartCarrier, Scheduler.reset]
    obtain ⟨hmaps, hrest⟩ := hcar
    rw [hmaps]
    exact ⟨hcur, hnext, hrest⟩

theorem scheduled_resetPart (straps : BitVec 12) (cause : ResetCause) (s : State) : Scheduled (resetPart straps cause s) := by
  refine scheduled_empty rfl fun c => ?_
  have hcar : (resetPart straps cause s).car c = CarrierState.reset (s.car c).monitor.rfPin (s.car c).modPin := by
    unfold resetPart
    exact Quad.get_map _ _ _
  rw [hcar]
  exact ⟨emptyMap_empty, emptyMap_empty, rfl, rfl, rfl⟩

/-! ### All of them -/

theorem scheduled_frameSafe : FrameSafe Scheduled where
  heard _ _ _ h := h
  counted _ _ h := h
  offered _ _ h := scheduled_congr (by simp) (by simp) (by simp) (by simp) (by simp) h

/-- Settles O8. A command that moves batches keeps the agreement by its own lemma, every other by leaving them where they are. -/
theorem stepKeepsScheduled : Obligations.StepKeepsScheduled := by
  unfold Obligations.StepKeepsScheduled
  intro s t h hs
  refine step_keeps (P := Scheduled) (fun _ _ h => h) (fun i s t h he => ?_) h hs
  by_cases hi : movesBatches i = false
  · exact (exec_samePlaces hi he).scheduled h
  have hF := scheduled_frameSafe
  cases i <;> first | exact absurd rfl hi | (injection he with he; subst he)
  case powerOn straps => exact scheduled_resetPart straps .powerOn s
  case resetPin straps => exact scheduled_resetPart straps .resetPin s
  case clockLost => exact scheduled_clockLost h
  case epochPulse => exact scheduled_epochPulse h
  case holdoverEpochStart => exact scheduled_holdoverStart h
  case batchHeader f => exact hF.traffic _ _ _ (fun body _ => scheduled_ownerHeader body) f h
  case batchBlock f => exact hF.traffic _ _ _ (fun body _ => scheduled_ownerBlock body) f h
  case cancel f => exact hF.traffic _ _ _ (fun body _ => scheduled_ownerCancel body) f h
  case restart f => exact hF.request _ _ (fun body _ => scheduled_ownerRestart body) f h
  case currentCycleAdvance c => exact scheduled_currentCycleAdvance c h
  case slotDecision c => exact scheduled_slotDecision c h
  case symbolEmit c => exact scheduled_symbolEmit c h
  case payloadEnd c => exact scheduled_payloadEnd c h

end Sys2Proof.Machine
end

section
/-! The commands that leave the alignment table, the site parameters and the probe's samples and assessment (O5). -/

namespace Sys2Proof.Machine

open Sys2Proof.Safety

/-- Neither the alignment table, nor a site parameter, nor the probe's samples or assessment differ. -/
def SameTables (s t : State) : Prop :=
  t.align = s.align ∧ t.mgmt.params = s.mgmt.params ∧ t.probe.samples = s.probe.samples ∧
    t.probe.assessment = s.probe.assessment

theorem SameTables.refl (s : State) : SameTables s s := ⟨rfl, rfl, rfl, rfl⟩

theorem SameTables.trans {s t u : State} (h : SameTables s t) (h' : SameTables t u) : SameTables s u := by
  simp_all [SameTables]

theorem sameTables_frameSafe (s : State) : FrameSafe (SameTables s) where
  heard _ _ _ h := h
  counted _ _ h := h
  offered _ _ h := h.trans (by simp [SameTables])

/-- The ranges of the tables, the parameters and the delays. -/
def InRange (s : State) : Prop := TablesInRange s ∧ ParamsInRange s ∧ DelaysInRange s

theorem SameTables.inRange {s t : State} (h : SameTables s t) (hs : InRange s) : InRange t := by
  obtain ⟨ha, hp, hsm, has⟩ := h
  unfold InRange TablesInRange ParamsInRange DelaysInRange State.par at *
  rw [ha, hp, hsm, has]
  exact hs

@[simp] theorem abortProbe_samples (s : State) :
    (abortProbe s).probe.samples = s.probe.samples ∧ (abortProbe s).probe.assessment = s.probe.assessment := by
  unfold abortProbe endProbe
  repeat' split
  all_goals simp

@[simp] theorem timingLoss_samples (s : State) :
    (timingLoss s).probe.samples = s.probe.samples ∧ (timingLoss s).probe.assessment = s.probe.assessment := by
  simp [timingLoss]

@[simp] theorem driveProbe_probe (v : Int) (s : State) : (driveProbe v s).probe = s.probe := by
  unfold driveProbe
  dsimp only
  split <;> simp

@[simp] theorem driveProbe_params (v : Int) (s : State) : (driveProbe v s).mgmt = s.mgmt := by
  unfold driveProbe
  dsimp only
  split <;> simp

section
variable (s : State)

/-! ### Traffic and requests -/

theorem sameTables_ownerTimeMark (body : List Byte) : SameTables s (ownerTimeMark body s) := by
  unfold ownerTimeMark takeMark
  repeat' split
  all_goals simp [SameTables]

theorem sameTables_ownerHeader (body : List Byte) : SameTables s (ownerHeader body s) := by
  unfold ownerHeader acceptHeader replaceClaimant
  dsimp only
  repeat' split
  all_goals simp [SameTables]

theorem sameTables_ownerBlock (body : List Byte) : SameTables s (ownerBlock body s) := by
  unfold ownerBlock
  dsimp only
  repeat' split
  all_goals simp [SameTables]

theorem sameTables_ownerCancel (body : List Byte) : SameTables s (ownerCancel body s) := by
  unfold ownerCancel
  dsimp only
  repeat' split
  all_goals simp [SameTables]

theorem sameTables_ownerEnableService (body : List Byte) : SameTables s (ownerEnableService body s).state := by
  unfold ownerEnableService
  split <;> simp [SameTables, Answer.refuse]

theorem sameTables_ownerRestart (body : List Byte) : SameTables s (ownerRestart body s).state := by
  unfold ownerRestart
  split
  · exact .refl s
  · simp [SameTables, restartPart, restartProbe]

theorem sameTables_ownerEpochSet (body : List Byte) : SameTables s (ownerEpochSet body s).state := by
  unfold ownerEpochSet
  split <;> simp [SameTables, Answer.refuse]

theorem sameTables_ownerReadAlign (body : List Byte) : SameTables s (ownerReadAlign body s).state := by
  unfold ownerReadAlign
  dsimp only
  repeat' split
  all_goals exact .refl s

theorem sameTables_ownerSchedule (body : List Byte) : SameTables s (ownerSchedule body s).state := by
  unfold ownerSchedule
  split <;> exact .refl s

theorem sameTables_ownerStandby (body : List Byte) : SameTables s (ownerStandby body s).state := by
  unfold ownerStandby
  repeat' split
  all_goals simp [SameTables]

theorem sameTables_ownerMarkerLoad (body : List Byte) : SameTables s (ownerMarkerLoad body s).state := by
  unfold ownerMarkerLoad
  dsimp only
  repeat' split
  all_goals simp [SameTables, Answer.refuse]

theorem sameTables_ownerMarkerClear (body : List Byte) : SameTables s (ownerMarkerClear body s).state := by
  unfold ownerMarkerClear
  split <;> simp [SameTables, Answer.refuse]

theorem sameTables_ownerGuardTest (body : List Byte) : SameTables s (ownerGuardTest body s).state := by
  unfold ownerGuardTest
  split <;> simp [SameTables, Answer.refuse]

theorem sameTables_ownerProbeAbort (body : List Byte) : SameTables s (ownerProbeAbort body s).state := by
  unfold ownerProbeAbort
  split <;> simp [SameTables, Answer.refuse]

theorem sameTables_ownerProbeResult (body : List Byte) : SameTables s (ownerProbeResult body s).state := by
  unfold ownerProbeResult clearResult
  dsimp only
  split <;> simp [SameTables]

theorem sameTables_ownerCounters (body : List Byte) : SameTables s (ownerCounters body s).state := by
  simp [SameTables, ownerCounters]

theorem sameTables_ownerClearAlarms (body : List Byte) : SameTables s (ownerClearAlarms body s).state := by
  simp [SameTables, ownerClearAlarms]

/-! ### Events -/

theorem sameTables_clockLost : SameTables s (clockLost s) := by
  unfold clockLost
  split <;> simp [SameTables]

theorem sameTables_clockReturn : SameTables s (clockReturn s) := by
  unfold clockReturn
  split <;> simp [SameTables]

theorem sameTables_clockEdge : SameTables s (clockEdge s) := by
  unfold clockEdge
  dsimp only
  split_ifs
  · exact sameTables_clockReturn s
  · simp [SameTables]
  · simp [SameTables]

theorem sameTables_epochPulse : SameTables s (epochPulse s) := by
  unfold epochPulse
  repeat' split
  all_goals simp [SameTables]

theorem sameTables_holdoverStart : SameTables s (holdoverStart s) := by
  unfold holdoverStart expireHoldover
  dsimp only
  split_ifs <;> simp [SameTables]

theorem sameTables_slotDecision (c : Carrier) : SameTables s (slotDecision c s) := by
  unfold slotDecision
  split <;> simp [SameTables]

theorem sameTables_currentCycleAdvance (c : Carrier) : SameTables s (currentCycleAdvance c s) := by
  unfold currentCycleAdvance
  repeat' split
  all_goals simp [SameTables]

theorem sameTables_symbolEmit (c : Carrier) : SameTables s (symbolEmit c s) := by
  unfold symbolEmit
  repeat' split
  all_goals simp [SameTables]

theorem sameTables_payloadEnd (c : Carrier) : SameTables s (payloadEnd c s) := by
  unfold payloadEnd
  repeat' split
  all_goals simp [SameTables]

theorem sameTables_tailExpiry (c : Carrier) : SameTables s (tailExpiry c s) := by
  unfold tailExpiry
  split <;> simp [SameTables]

theorem sameTables_wakeExpiry (c : Carrier) : SameTables s (wakeExpiry c s) := by
  unfold wakeExpiry
  split <;> simp [SameTables]

theorem sameTables_rfSenseChange (c : Carrier) (p : Bool) : SameTables s (rfSenseChange c p s) := by
  have hs (u : State) : SameTables u (seeRf c p u) := by
    unfold seeRf
    split_ifs <;> simp [SameTables]
  have hr (u : State) : SameTables u (recheck c p u) := by simp [SameTables]
  unfold rfSenseChange
  dsimp only
  split_ifs
  · simp [SameTables]
  · exact SameTables.trans (t := (s.modCar c _).modCar c (sampleChange s.now p)) (by simp [SameTables]) ((hs _).trans (hr _))

theorem sameTables_stuckCarrier (c : Carrier) : SameTables s (stuckCarrier c s) := by
  unfold stuckCarrier
  repeat' split
  all_goals simp [SameTables]

theorem sameTables_beginProbes : SameTables s (beginProbes s) := by simp [SameTables, beginProbes]

theorem sameTables_loadSettleEnd : SameTables s (loadSettleEnd s) := by
  unfold loadSettleEnd
  dsimp only
  split_ifs
  · refine SameTables.trans ?_ (sameTables_beginProbes _)
    simp [SameTables]
  · simp [SameTables]
  · exact .refl s

theorem sameTables_keyUpEnd : SameTables s (keyUpEnd s) := by
  unfold keyUpEnd
  split
  · exact sameTables_beginProbes s
  · exact .refl s

theorem sameTables_probeEmission : SameTables s (probeEmission s) := by
  unfold probeEmission
  repeat' split
  all_goals simp [SameTables]

theorem sameTables_keyDownEnd : SameTables s (keyDownEnd s) := by
  unfold keyDownEnd
  split <;> simp [SameTables]

theorem sameTables_observeEnd : SameTables s (observeEnd s) := by
  unfold observeEnd endProbe
  dsimp only
  split_ifs <;> simp [SameTables]

theorem sameTables_downFrameRelay (f : Frame) : SameTables s (downFrameRelay f s) := by
  unfold downFrameRelay offerRelay
  dsimp only
  repeat' split
  all_goals simp [SameTables]

theorem sameTables_syncWordMatch (p : Port) (w : BitVec 16) : SameTables s (syncWordMatch p w s) := by
  unfold syncWordMatch
  repeat' split
  all_goals simp [SameTables]

theorem sameTables_transmits : SameTables s (repeatTxStart s) ∧ SameTables s (repeatTxEnd s) ∧ SameTables s (upTxStart s) ∧
    SameTables s (upTxEnd s) := by
  unfold repeatTxStart repeatTxEnd upTxStart upTxEnd
  refine ⟨?_, ?_, ?_, ?_⟩
  all_goals
    dsimp only
    repeat' split
  all_goals exact ⟨rfl, rfl, rfl, rfl⟩

end

/-! ### All of them -/

/-- The commands that write a table, a parameter, a delay or a sample. -/
def writesTables : Instr → Bool
  | .powerOn _ | .resetPin _ | .loadSite _ | .loadAlign _ | .commitAlign _ | .tableRoll | .probeStart _ | .modSenseChange _
  | .edgeWindowClose | .probePhaseEnd | .loadReturnEnd => true
  | _ => false

/-- Every other command leaves them. -/
theorem exec_sameTables {i : Instr} {s t : State} (hi : writesTables i = false) (he : exec i s = .next t) : SameTables s t := by
  have hF := sameTables_frameSafe s
  have request {owner : List Byte → State → Answer} (ho : ∀ s body, SameTables s (owner body s).state) (kind : Byte) (len : Nat)
      (f : RxFrame) : SameTables s (receiveUp kind (takeRequest len owner) f s) :=
    hF.request kind len (fun body _ h => h.trans (ho _ body)) f (.refl s)
  have traffic {owner : List Byte → State → State} (ho : ∀ s body, SameTables s (owner body s)) (kind : Byte) (k : TrafficKind)
      (len : Nat) (f : RxFrame) : SameTables s (receiveUp kind (takeTraffic k len owner) f s) :=
    hF.traffic kind k len (fun body _ h => h.trans (ho _ body)) f (.refl s)
  cases i <;> (injection he with he; subst he)
  case timeMark f => exact traffic sameTables_ownerTimeMark _ _ _ f
  case batchHeader f => exact traffic sameTables_ownerHeader _ _ _ f
  case batchBlock f => exact traffic sameTables_ownerBlock _ _ _ f
  case cancel f => exact traffic sameTables_ownerCancel _ _ _ f
  case unknownRequest k f =>
    show SameTables s (unknownRequest k f s)
    unfold unknownRequest
    split
    · exact request (fun s _ => .refl s) _ _ f
    · exact .refl s
  case enableService f => exact request sameTables_ownerEnableService _ _ f
  case restart f => exact request sameTables_ownerRestart _ _ f
  case status f => exact request (fun s _ => .refl s) _ _ f
  case counters f => exact request sameTables_ownerCounters _ _ f
  case clearAlarms f => exact request sameTables_ownerClearAlarms _ _ f
  case readAlign f => exact request sameTables_ownerReadAlign _ _ f
  case epochSet f => exact request sameTables_ownerEpochSet _ _ f
  case schedule f => exact request sameTables_ownerSchedule _ _ f
  case standby f => exact request sameTables_ownerStandby _ _ f
  case markerLoad f => exact request sameTables_ownerMarkerLoad _ _ f
  case markerClear f => exact request sameTables_ownerMarkerClear _ _ f
  case probeAbort f => exact request sameTables_ownerProbeAbort _ _ f
  case probeResult f => exact request sameTables_ownerProbeResult _ _ f
  case guardTest f => exact request sameTables_ownerGuardTest _ _ f
  case clockLost => exact sameTables_clockLost s
  case clockReturn => exact sameTables_clockReturn s
  case referenceClockEdge => exact sameTables_clockEdge s
  case epochPulse => exact sameTables_epochPulse s
  case holdoverEpochStart => exact sameTables_holdoverStart s
  case slotDecision c => exact sameTables_slotDecision s c
  case currentCycleAdvance c => exact sameTables_currentCycleAdvance s c
  case slotEnd c => simp [SameTables, slotEnd]
  case keyUp c => simp [SameTables]
  case symbolEmit c => exact sameTables_symbolEmit s c
  case payloadEnd c => exact sameTables_payloadEnd s c
  case tailExpiry c => exact sameTables_tailExpiry s c
  case wakeExpiry c => exact sameTables_wakeExpiry s c
  case rfSenseChange c p => exact sameTables_rfSenseChange s c p
  case stuckCarrier c => exact sameTables_stuckCarrier s c
  case loadSettleEnd => exact sameTables_loadSettleEnd s
  case keyUpEnd => exact sameTables_keyUpEnd s
  case probeEmission => exact sameTables_probeEmission s
  case keyDownEnd => exact sameTables_keyDownEnd s
  case observeEnd => exact sameTables_observeEnd s
  case downFrameRelay f => exact sameTables_downFrameRelay s f
  case syncWordMatch p w => exact sameTables_syncWordMatch s p w
  case repeatTxStart => exact (sameTables_transmits s).1
  case repeatTxEnd => exact (sameTables_transmits s).2.1
  case upTxStart => exact (sameTables_transmits s).2.2.1
  case upTxEnd => exact (sameTables_transmits s).2.2.2
  all_goals cases hi

/-! ### What a load, a roll and a probe write -/

theorem clampInt_mem {lo hi : Int} (h : lo ≤ hi) (x : Int) : lo ≤ clampInt lo hi x ∧ clampInt lo hi x ≤ hi := by
  rw [clampInt_eq_max_min h]
  omega

theorem clampNat_mem {lo hi : Nat} (h : lo ≤ hi) (x : Nat) : lo ≤ clampNat lo hi x ∧ clampNat lo hi x ≤ hi := by
  unfold clampNat
  split_ifs <;> omega

theorem clampNat_le {hi : Nat} (x : Nat) {lo : Nat} (h : lo ≤ hi) : clampNat lo hi x ≤ hi := (clampNat_mem h x).2

theorem recordInRange_reset : RecordInRange CarrierRecord.reset := by
  refine ⟨by decide, by decide, fun g => ?_⟩
  rw [show CarrierRecord.reset.rows.get g = { enabled := false, offset := 0 } by
    simp [CarrierRecord.reset, Vector.get_eq_getElem]]
  decide

theorem recordInRange_loaded (body : List Byte) (first count : Nat) {r : CarrierRecord} (h : RecordInRange r) :
    RecordInRange (loadedRecord body first count r) := by
  obtain ⟨hlo, hhi⟩ := clampInt_mem (lo := -16384) (hi := 16383) (by decide) (signedField body 5)
  refine ⟨hlo, hhi, fun g => ?_⟩
  rw [show (loadedRecord body first count r).rows = writeRows body first count r.rows from rfl, writeRows_get]
  split
  · exact clampInt_mem (by decide) _
  · exact h.2.2 g

theorem paramsInRange_loaded {body : List Byte} {s : State} (h : s.mgmt.params = loadedSite body) : ParamsInRange s := by
  have hcar (c : Carrier) : s.par c = loadedParams body c := by
    unfold State.par
    rw [h]
    cases c <;> rfl
  have hw := clampNat_mem (lo := 1) (hi := 1000) (by decide) (field body 0 2)
  refine ⟨?_, ?_, ?_, ?_, ?_, fun c => ?_⟩
  · rw [h]; exact hw.1
  · rw [h]; exact hw.2
  · rw [h]; exact clampNat_le _ (Nat.zero_le _)
  · rw [h]; exact clampNat_le _ (Nat.zero_le _)
  · rw [h]; exact clampNat_le _ (Nat.zero_le _)
  · rw [hcar]
    exact ⟨clampNat_le _ (Nat.zero_le _), clampNat_le _ (Nat.zero_le _), clampNat_le _ (Nat.zero_le _),
      clampNat_le _ (Nat.zero_le _)⟩

theorem loadedDelay_le (body : List Byte) (c : Carrier) : (loadedDelay body c).toNat ≤ 2000000 := by
  have := clampInt_mem (lo := 0) (hi := 2000000) (by decide) (signedField body (siteOffset c + 13))
  unfold loadedDelay Config.delayLimit
  omega

theorem inRange_ownerLoadSite (body : List Byte) {s : State} (h : InRange s) : InRange (ownerLoadSite body s).state := by
  unfold ownerLoadSite
  split
  · exact h
  obtain ⟨htables, -, -, hsamples, hmean⟩ := h
  have hsame : (loadSite body s).align.active = s.align.active ∧ (loadSite body s).align.staged = s.align.staged ∧
      (loadSite body s).mgmt.params = loadedSite body ∧ (loadSite body s).probe = s.probe ∧
      (loadSite body s).align.delays = s.align.delays.map fun c _ => { value := (loadedDelay body c).toNat, pending := none } := by
    simp [loadSite, evalStoreLow, loadDelays]
  obtain ⟨hactive, hstaged, hparams, hprobe, hdelays⟩ := hsame
  refine ⟨fun c => ?_, paramsInRange_loaded hparams, fun c => ?_, ?_, ?_⟩
  · rw [hactive, hstaged]; exact htables c
  · rw [hdelays, Quad.get_map]
    exact ⟨loadedDelay_le body c, fun v hv => by cases hv⟩
  · rw [hprobe]; exact hsamples
  · rw [hprobe]; exact hmean

/-- Banks that hold records in range, with delays, parameters and probe as they were. -/
theorem inRange_setAlign {s : State} (h : InRange s) (a : Align) (hd : a.delays = s.align.delays)
    (ht : ∀ c, RecordInRange (a.active.records.get c) ∧ RecordInRange (a.staged.records.get c)) : InRange (s.setAlign a) := by
  obtain ⟨-, hparams, hdelays, hprobe⟩ := h
  refine ⟨ht, hparams, fun c => ?_, hprobe⟩
  rw [State.setAlign_align, hd]
  exact hdelays c

theorem inRange_ownerLoadAlign (body : List Byte) {s : State} (h : InRange s) : InRange (ownerLoadAlign body s).state := by
  unfold ownerLoadAlign
  dsimp only
  split
  · exact h
  · next c _ =>
    split_ifs
    · exact h
    · exact h
    · exact h
    all_goals
      refine inRange_setAlign h _ rfl fun d => ⟨(h.1 d).1, ?_⟩
      dsimp only
      rw [Quad.get_set]
      split
      · exact recordInRange_loaded _ _ _ (h.1 c).2
      · exact (h.1 d).2

theorem inRange_ownerCommitAlign (body : List Byte) {s : State} (h : InRange s) : InRange (ownerCommitAlign body s).state := by
  unfold ownerCommitAlign
  dsimp only
  split
  · exact inRange_setAlign h _ rfl h.1
  · exact inRange_setAlign h _ rfl h.1

theorem takeDelay_mem {d : PathDelay} (h : d.value ≤ 2000000 ∧ ∀ v, d.pending = some v → v ≤ 2000000) :
    (takeDelay d).value ≤ 2000000 ∧ ∀ v, (takeDelay d).pending = some v → v ≤ 2000000 := by
  unfold takeDelay
  split
  · next v hv => exact ⟨h.2 v hv, fun _ he => by cases he⟩
  · exact h

theorem inRange_tableRoll {s : State} (h : InRange s) : InRange (tableRoll s) := by
  unfold tableRoll
  split
  · dsimp only
    have htaken : InRange (s.setAlign { s.align with
        delays := s.align.delays.map fun _ d => takeDelay d, lastRoll := some s.now }) := by
      obtain ⟨htables, hparams, hdelays, hprobe⟩ := h
      refine ⟨htables, hparams, fun c => ?_, hprobe⟩
      rw [State.setAlign_align, Quad.get_map]
      exact takeDelay_mem (hdelays c)
    split
    · have hswitch (a : Align) (ha : InRange (s.setAlign a)) : InRange (s.setAlign (switchBanks a)) := by
        unfold switchBanks
        split
        · exact inRange_setAlign ha _ rfl fun c => ⟨(ha.1 c).2, (ha.1 c).2⟩
        · exact ha
      exact SameTables.inRange (by simp [SameTables]) (hswitch _ htaken)
    · exact htaken
  · exact h

/-- New samples and a new assessment in their ranges, with tables, parameters and delays as they were. -/
theorem inRange_of_samples {s t : State} (h : InRange s) (ha : t.align = s.align) (hp : t.mgmt.params = s.mgmt.params)
    (hs : ∀ n, Sample.delay n ∈ t.probe.samples → 1 ≤ n ∧ n ≤ 20000)
    (hm : ∀ a m, t.probe.assessment = some a → a.mean = some m → m ≤ 2000000) : InRange t := by
  obtain ⟨htables, hparams, hdelays, -⟩ := h
  unfold InRange TablesInRange ParamsInRange DelaysInRange State.par at *
  rw [ha, hp]
  exact ⟨htables, hparams, hdelays, hs, hm⟩

theorem inRange_ownerProbeStart (body : List Byte) {s : State} (h : InRange s) : InRange (ownerProbeStart body s).state := by
  have hclear : InRange (clearResult s) := SameTables.inRange (by simp [SameTables, clearResult]) h
  have hstart (c : Carrier) (m : ProbeMode) (a : Bool) : InRange (startProbe c m a (clearResult s)) := by
    have hprobe : (startProbe c m a (clearResult s)).probe.samples = Probe.noSamples ∧
        (startProbe c m a (clearResult s)).probe.assessment = none := by
      cases m <;> exact ⟨rfl, rfl⟩
    refine inRange_of_samples hclear (by simp) (by simp) (fun n hn => ?_) fun x m hx => ?_
    · rw [hprobe.1] at hn
      simp [Probe.noSamples] at hn
    · rw [hprobe.2] at hx
      cases hx
  unfold ownerProbeStart
  dsimp only
  split
  · split
    · exact hclear
    · exact hstart _ _ _
  · exact hclear

/-- One sample more, in the range of the edge window (R144). -/
theorem inRange_setSample {s : State} (h : InRange s) (i : Nat) {x : Sample} (hx : ∀ n, x = .delay n → 1 ≤ n ∧ n ≤ 20000) :
    InRange (setSample i x s) := by
  obtain ⟨htables, hparams, hdelays, hsamples, hmean⟩ := h
  refine ⟨htables, hparams, hdelays, fun n hn => ?_, hmean⟩
  rcases List.mem_or_eq_of_mem_set hn with hold | hnew
  · exact hsamples n hold
  · exact hx n hnew.symm

theorem inRange_modSenseChange (c : Carrier) {s : State} (h : InRange s) : InRange (modSenseChange c s) := by
  have hpin : InRange (s.modCar c fun k => { k with modPin := !k.modPin }) := h
  unfold modSenseChange takeSample
  dsimp only
  split
  · split
    · split
      · next hd =>
        refine inRange_setSample hpin _ fun n hn => ?_
        obtain rfl : _ = n := Sample.delay.inj hn
        simp only [Bool.and_eq_true, decide_eq_true_eq, Config.edgeWindow] at hd
        exact ⟨hd.1.1, of_decide_eq_true hd.1.2⟩
      · exact hpin
    · exact hpin
  · exact hpin

theorem inRange_edgeWindowClose {s : State} (h : InRange s) : InRange (edgeWindowClose s) := by
  unfold edgeWindowClose
  split
  · split
    · exact inRange_setSample h _ fun n hn => by cases hn
    · exact h
  · exact h

/-- The delays among the samples sum to at most 20,000 each. -/
theorem sum_delaysOf_le {samples : List Sample} (h : ∀ n, Sample.delay n ∈ samples → 1 ≤ n ∧ n ≤ 20000) :
    (delaysOf samples).sum ≤ 20000 * (delaysOf samples).length := by
  have hle : ∀ n ∈ delaysOf samples, n ≤ 20000 := by
    intro n hn
    obtain ⟨x, hx, he⟩ := List.mem_filterMap.1 hn
    cases x with
    | delay m =>
      obtain rfl : m = n := Option.some.inj he
      exact (h m hx).2
    | notTaken | missed => cases he
  rw [Nat.mul_comm]
  simpa using List.sum_le_card_nsmul _ _ hle

theorem assess_mean_le {samples : List Sample} (h : ∀ n, Sample.delay n ∈ samples → 1 ≤ n ∧ n ≤ 20000) {m : Nat}
    (hm : (assess samples).mean = some m) : m ≤ 2000000 := by
  unfold assess at hm
  dsimp only at hm
  split at hm
  · next hl =>
    have hsum := sum_delaysOf_le h
    simp only [Bool.and_eq_true, decide_eq_true_eq] at hl
    obtain rfl := Option.some.inj hm
    unfold roundUp
    omega
  · cases hm

theorem inRange_probePhaseEnd {s : State} (h : InRange s) : InRange (probePhaseEnd s) := by
  unfold probePhaseEnd
  split
  · have hsamples := h.2.2.2.1
    refine inRange_of_samples h (by simp) (by simp) (by simpa using hsamples) fun a m ha hm => ?_
    obtain rfl := Option.some.inj ha
    exact assess_mean_le hsamples hm
  · exact h

theorem inRange_adoptDelay {s : State} (h : InRange s) (r : ProbeRecord) (hr : ∀ m, r.mean = some m → m ≤ 2000000) :
    InRange (adoptDelay r s) := by
  unfold adoptDelay
  split
  · next m hm =>
    split
    · obtain ⟨htables, hparams, hdelays, hprobe⟩ := h
      refine ⟨htables, hparams, fun c => ?_, hprobe⟩
      rw [State.setAlign_align, Quad.get_set]
      split
      · refine ⟨(hdelays r.carrier).1, fun v hv => ?_⟩
        obtain rfl := Option.some.inj hv
        exact hr _ hm
      · exact hdelays c
    · exact h
  · exact h

theorem inRange_loadReturnEnd {s : State} (h : InRange s) : InRange (loadReturnEnd s) := by
  have hend (r : ProbeRecord) {u : State} (hu : InRange u) : InRange (endProbe r u) := by
    refine SameTables.inRange ?_ hu
    unfold endProbe
    dsimp only
    split <;> simp [SameTables]
  have hload : InRange (s.modCar s.probe.carrier fun k => { k with load := false }) := h
  unfold loadReturnEnd
  split
  · dsimp only
    split_ifs
    · exact hend _ hload
    · exact hend _ hload
    · refine hend _ (inRange_adoptDelay hload _ fun m hm => ?_)
      obtain ⟨-, -, -, hsamples, hmean⟩ := h
      unfold pathRecord at hm
      dsimp only at hm
      cases ha : s.probe.assessment with
      | none =>
        rw [ha] at hm
        exact assess_mean_le hsamples hm
      | some a =>
        rw [ha] at hm
        exact hmean a m ha hm
  · exact h

theorem inRange_resetPart (straps : BitVec 12) (cause : ResetCause) (s : State) : InRange (resetPart straps cause s) := by
  have hbank (c : Carrier) : RecordInRange (Bank.reset.records.get c) := by
    rw [show Bank.reset.records.get c = CarrierRecord.reset from Quad.get_all _ c]
    exact recordInRange_reset
  have hdelay (c : Carrier) : Align.reset.delays.get c = { value := 0, pending := none } := Quad.get_all _ c
  have hpar (c : Carrier) : (resetPart straps cause s).par c = CarrierParams.default := Quad.get_all _ c
  refine ⟨fun c => ⟨hbank c, hbank c⟩, ⟨Nat.le_of_ble_eq_true rfl, Nat.le_of_ble_eq_true rfl, Nat.le_of_ble_eq_true rfl,
      Nat.le_of_ble_eq_true rfl, Nat.le_of_ble_eq_true rfl, fun c => ?_⟩,
    fun c => ?_, fun n hn => ?_, fun a m ha => by cases ha⟩
  · rw [hpar]; decide
  · rw [show (resetPart straps cause s).align = Align.reset from rfl, hdelay]
    exact ⟨Nat.zero_le _, fun v hv => by cases hv⟩
  · rw [show (resetPart straps cause s).probe.samples = Probe.noSamples from rfl] at hn
    simp [Probe.noSamples] at hn

theorem inRange_frameSafe : FrameSafe InRange where
  heard _ _ _ h := h
  counted _ _ h := h
  offered _ _ h := SameTables.inRange (by simp [SameTables]) h

/-- Settles O5. A command that writes a table, a parameter, a delay or a sample confines what it writes; every other leaves
them. -/
theorem stepKeepsTablesInRange : Obligations.StepKeepsTablesInRange := by
  unfold Obligations.StepKeepsTablesInRange
  intro s t htables hparams hdelays hs
  refine step_keeps (P := InRange) (fun _ _ h => h) (fun i s t h he => ?_) ⟨htables, hparams, hdelays⟩ hs
  by_cases hi : writesTables i = false
  · exact (exec_sameTables hi he).inRange h
  have hF := inRange_frameSafe
  cases i <;> first | exact absurd rfl hi | (injection he with he; subst he)
  case powerOn straps => exact inRange_resetPart straps .powerOn s
  case resetPin straps => exact inRange_resetPart straps .resetPin s
  case loadSite f => exact hF.request _ _ (fun body _ => inRange_ownerLoadSite body) f h
  case loadAlign f => exact hF.request _ _ (fun body _ => inRange_ownerLoadAlign body) f h
  case commitAlign f => exact hF.request _ _ (fun body _ => inRange_ownerCommitAlign body) f h
  case probeStart f => exact hF.request _ _ (fun body _ => inRange_ownerProbeStart body) f h
  case tableRoll => exact inRange_tableRoll h
  case modSenseChange c => exact inRange_modSenseChange c h
  case edgeWindowClose => exact inRange_edgeWindowClose h
  case probePhaseEnd => exact inRange_probePhaseEnd h
  case loadReturnEnd => exact inRange_loadReturnEnd h

end Sys2Proof.Machine
end

section
/-! Every step keeps the probe's flags consistent, and its hold of the key (O6). Beside the keys go the driven words. -/

namespace Sys2Proof.Machine

open Sys2Proof.Safety

/-! ### Keys in PROBE (R111, R127) and driven words (R37) -/

/-- A word in its range (R37). -/
def WordFits (x : Int) : Prop := -32768 ≤ x ∧ x ≤ 32767

theorem wordFits_wordOf (w : WordSet) (v : Int) : WordFits (wordOf w v) := clampInt_mem (by decide) _

/-- The key is not newly in PROBE, and the word is the same or lies in its range. -/
def KeyAndWord (k m : CarrierState) : Prop := (m.key = .probe → k.key = .probe) ∧ (m.word = k.word ∨ WordFits m.word)

/-- On every carrier the key is not newly in PROBE, and the word is the same or lies in its range. -/
def KeysAndWords (s t : State) : Prop := ∀ c, KeyAndWord (s.car c) (t.car c)

theorem KeyAndWord.refl (k : CarrierState) : KeyAndWord k k := ⟨id, .inl rfl⟩

theorem KeysAndWords.refl (s : State) : KeysAndWords s s := fun _ => .refl _

theorem KeysAndWords.trans {s t u : State} (h : KeysAndWords s t) (h' : KeysAndWords t u) : KeysAndWords s u := by
  refine fun c => ⟨fun hc => (h c).1 ((h' c).1 hc), ?_⟩
  rcases (h' c).2 with he | hf
  · exact he ▸ (h c).2
  · exact .inr hf

theorem keysAndWords_of_eq {s t : State} (h : ∀ c, (t.car c).key = (s.car c).key ∧ (t.car c).word = (s.car c).word) :
    KeysAndWords s t :=
  fun c => ⟨fun hc => (h c).1 ▸ hc, .inl (h c).2⟩

theorem keysAndWords_modCar (c : Carrier) {f : CarrierState → CarrierState} {s : State}
    (hf : KeyAndWord (s.car c) (f (s.car c))) : KeysAndWords s (s.modCar c f) := by
  intro d
  rw [State.modCar_car]
  split
  · next hc => exact hc ▸ hf
  · exact .refl _

theorem keysAndWords_dropKey (c : Carrier) (s : State) : KeysAndWords s (dropKey c s) :=
  keysAndWords_modCar c ⟨by simp, .inr (wordFits_wordOf _ _)⟩

theorem keysAndWords_releaseNow (c : Carrier) (x : Option SlotRef) (s : State) : KeysAndWords s (releaseNow c x s) := by
  intro d
  by_cases hp : (s.car c).key = .probe
  · rw [(releaseNow_same c x s).1 hp]
    exact .refl _
  · by_cases hc : d = c
    · subst hc
      rw [((releaseNow_same d x s).2 hp).1]
      exact ⟨by simp, .inr (wordFits_wordOf _ _)⟩
    · rw [(releaseNow_keeps c x s).2.2.2.2.2.2.2.2.2.2 d hc]
      exact .refl _

theorem keysAndWords_releaseAll (s : State) : KeysAndWords s (releaseAll s) :=
  (((keysAndWords_releaseNow _ _ _).trans (keysAndWords_releaseNow _ _ _)).trans
    (keysAndWords_releaseNow _ _ _)).trans (keysAndWords_releaseNow _ _ _)

theorem keyAndWord_openPeriod (r : Run) (k : CarrierState) : KeyAndWord k (openPeriod r k) :=
  ⟨by simp [openPeriod], .inr (wordFits_wordOf _ _)⟩

theorem keyAndWord_keyProgram (now : Tick) (lead : Nat) (r : Run) (k : CarrierState) : KeyAndWord k (keyProgram now lead r k) := by
  unfold keyProgram
  split
  · split
    · exact keyAndWord_openPeriod r k
    · exact ⟨by simp, .inl rfl⟩
  · exact .refl k
  · exact .refl k
  · exact ⟨by simp, .inl rfl⟩
  · exact .refl k

theorem keysAndWords_launchRun (c : Carrier) (sl : SlotRef) (g : Fin 16) (x : RateClass) (k : RunContent) (s : State) :
    KeysAndWords s (launchRun c sl g x k s) := by
  refine KeysAndWords.trans (t := latchIf (offsetClamped (slotOffset c g s)) (.offsetClamped c) s)
    (keysAndWords_of_eq (by simp)) (keysAndWords_modCar c ?_)
  obtain ⟨hk, hw⟩ := keyAndWord_keyProgram s.now (s.par c).lead (formRun c sl g x k s)
    { s.car c with timer := placeRun (formRun c sl g x k s) (s.car c).timer }
  simp only [latchIf_keeps]
  exact ⟨hk, hw⟩

theorem keysAndWords_programBatch (c : Carrier) (sl : SlotRef) (b : Batch) (s : State) :
    KeysAndWords s (programBatch c sl b s) :=
  KeysAndWords.trans (keysAndWords_of_eq (by simp)) (keysAndWords_launchRun _ _ _ _ _ _)

theorem keysAndWords_takeProgram (c : Carrier) (sl : SlotRef) (p : Program) (s : State) :
    KeysAndWords s (takeProgram c sl p s) := by
  unfold takeProgram
  split
  · split
    · exact KeysAndWords.trans (keysAndWords_of_eq (by simp)) (keysAndWords_programBatch _ _ _ _)
    · exact .refl s
  · split
    · exact KeysAndWords.trans (keysAndWords_of_eq (by simp)) (keysAndWords_programBatch _ _ _ _)
    · exact .refl s
  · split
    · exact keysAndWords_programBatch _ _ _ _
    · exact .refl s
  · exact keysAndWords_launchRun _ _ _ _ _ _
  · exact .refl s
  · exact .refl s

theorem keysAndWords_keyUp (c : Carrier) (s : State) : KeysAndWords s (keyUp c s) := by
  unfold keyUp
  split
  · refine keysAndWords_modCar c ?_
    split
    · exact keyAndWord_openPeriod _ _
    · exact ⟨by simp, .inl rfl⟩
  · exact .refl s

theorem keysAndWords_keyFirst (c : Carrier) (r : Run) (s : State) : KeysAndWords s (keyFirst c r s) := by
  unfold keyFirst
  split
  · exact keysAndWords_keyUp c s
  · exact .refl s

theorem keysAndWords_guardFault (c : Carrier) (r : Run) (id : BatchId) (s : State) : KeysAndWords s (guardFault c r id s) := by
  refine KeysAndWords.trans (keysAndWords_of_eq ?_) (KeysAndWords.trans
    (keysAndWords_releaseNow c (some r.slot) (assignCode c r.slot .guardFault (some id) s)) (keysAndWords_of_eq ?_))
  · simp
  · simp [guardFault]

theorem keysAndWords_emitSymbol (c : Carrier) (r : Run) (s : State) : KeysAndWords s (emitSymbol c r s) := by
  have hword (u : State) : KeysAndWords u (emitWord c r u) := by
    have hdrive (w : WordSet) (v : Int) (u : State) : KeysAndWords u (driveSymbol c w v u) := by
      have hm : KeysAndWords u (u.modCar c fun k => { k with word := wordOf w v }) :=
        keysAndWords_modCar c ⟨id, .inr (wordFits_wordOf _ _)⟩
      unfold driveSymbol
      dsimp only
      split
      · exact hm.trans (keysAndWords_of_eq (by simp))
      · exact hm
    exact KeysAndWords.trans (keysAndWords_of_eq (by simp)) (hdrive _ _ _)
  have hrun (u : State) : KeysAndWords u (advanceRun c r (emitWord c r u)) :=
    (hword u).trans (keysAndWords_of_eq (by simp))
  have hclose (id : BatchId) (i : Nat) (u : State) : KeysAndWords u (closeBlock c r id i u) := by
    unfold closeBlock
    split_ifs
    · exact keysAndWords_of_eq (by simp)
    · exact keysAndWords_of_eq (by simp)
    · exact KeysAndWords.trans (keysAndWords_of_eq (by simp)) (keysAndWords_guardFault _ _ _ _)
  unfold emitSymbol
  split
  · exact hrun s
  · split_ifs
    · exact keysAndWords_guardFault _ _ _ _
    · exact (hword s).trans (hclose _ _ _)
    · exact hrun s

theorem keysAndWords_startTail (c : Carrier) (s : State) : KeysAndWords s (startTail c s) := by
  unfold startTail
  split_ifs
  · exact keysAndWords_dropKey c s
  · exact keysAndWords_modCar c ⟨by simp, .inl rfl⟩
  · exact .refl s

theorem keysAndWords_completeStart (s : State) : KeysAndWords s (completeStart s) := by
  unfold completeStart
  dsimp only
  split_ifs
  · refine KeysAndWords.trans (keysAndWords_of_eq ?_) (KeysAndWords.trans
      (keysAndWords_releaseAll (latch .epochRenumbered (modTracker Tracker.takeNumber s))) (keysAndWords_of_eq ?_))
    · simp
    · simp [renumberingFlush]
  · exact keysAndWords_of_eq (by simp)

/-! ### The commands that leave the probe -/

/-- The probe is the same, no key is newly in PROBE, and a driven word that differs fits. -/
def SameProbe (s t : State) : Prop := t.probe = s.probe ∧ KeysAndWords s t

theorem SameProbe.refl (s : State) : SameProbe s s := ⟨rfl, .refl s⟩

theorem SameProbe.trans {s t u : State} (h : SameProbe s t) (h' : SameProbe t u) : SameProbe s u :=
  ⟨h'.1.trans h.1, h.2.trans h'.2⟩

/-- The probe's flags, and its hold of the key. -/
def ProbeSafe (s : State) : Prop := ProbeFlags s ∧ ProbeHoldsKey s

theorem SameProbe.probeSafe {s t : State} (h : SameProbe s t) (hs : ProbeSafe s) : ProbeSafe t := by
  obtain ⟨hp, hk⟩ := h
  unfold ProbeSafe ProbeFlags ProbeHoldsKey at *
  rw [hp]
  exact ⟨hs.1, fun c hc => hs.2.1 c ((hk c).1 hc), hs.2.2⟩

theorem sameProbe_of_eq {s t : State} (hp : t.probe = s.probe)
    (h : ∀ c, (t.car c).key = (s.car c).key ∧ (t.car c).word = (s.car c).word) : SameProbe s t :=
  ⟨hp, keysAndWords_of_eq h⟩

theorem sameProbe_frameSafe (s : State) : FrameSafe (SameProbe s) where
  heard _ _ _ h := h
  counted _ _ h := h
  offered _ _ h := h.trans (sameProbe_of_eq (by simp) (by simp))

section
variable (s : State)

theorem sameProbe_modCar (c : Carrier) {f : CarrierState → CarrierState} (hf : ∀ k, KeyAndWord k (f k)) :
    SameProbe s (s.modCar c f) :=
  ⟨rfl, keysAndWords_modCar c (hf _)⟩

theorem sameProbe_ownerTimeMark (body : List Byte) : SameProbe s (ownerTimeMark body s) := by
  unfold ownerTimeMark takeMark
  repeat' split
  all_goals exact sameProbe_of_eq (by simp) (by simp)

theorem sameProbe_ownerHeader (body : List Byte) : SameProbe s (ownerHeader body s) := by
  have hplaced (id : BatchId) (c : Carrier) (n : CycleNo) (i : Fin 32) (u : State) :
      SameProbe u (wakeTrigger c (u.modCar c fun k => { k with maps := placeClaim id n i k.maps })) := by
    have hmaps := sameProbe_modCar u c (f := fun k => { k with maps := placeClaim id n i k.maps }) fun k => .refl k
    exact hmaps.trans (sameProbe_of_eq (by simp) (by simp))
  have hreplaced (b : Batch) (c : Carrier) (n : CycleNo) (i : Fin 32) :
      SameProbe s (addBatch b (bringMaps c (replaceClaimant c n i s))) := by
    unfold replaceClaimant
    split <;> exact sameProbe_of_eq (by simp) (by simp)
  unfold ownerHeader
  dsimp only
  split
  · exact .refl s
  · split
    · exact sameProbe_of_eq (by simp) (by simp)
    · exact (hreplaced _ _ _ _).trans (hplaced _ _ _ _ _)

theorem sameProbe_ownerBlock (body : List Byte) : SameProbe s (ownerBlock body s) := by
  unfold ownerBlock
  dsimp only
  repeat' split
  all_goals exact sameProbe_of_eq (by simp) (by simp)

theorem sameProbe_ownerCancel (body : List Byte) : SameProbe s (ownerCancel body s) := by
  unfold ownerCancel
  dsimp only
  repeat' split
  all_goals exact sameProbe_of_eq (by simp) (by simp)

theorem sameProbe_ownerLoadSite (body : List Byte) : SameProbe s (ownerLoadSite body s).state := by
  unfold ownerLoadSite loadSite evalStoreLow loadDelays
  split
  · exact .refl s
  · exact sameProbe_of_eq (by simp) (by simp)

theorem sameProbe_ownerEnableService (body : List Byte) : SameProbe s (ownerEnableService body s).state := by
  unfold ownerEnableService
  split <;> exact sameProbe_of_eq (by simp [Answer.refuse]) (by simp [Answer.refuse])

theorem sameProbe_ownerLoadAlign (body : List Byte) : SameProbe s (ownerLoadAlign body s).state := by
  unfold ownerLoadAlign
  dsimp only
  repeat' split
  all_goals exact .refl s

theorem sameProbe_ownerCommitAlign (body : List Byte) : SameProbe s (ownerCommitAlign body s).state := by
  unfold ownerCommitAlign
  dsimp only
  split <;> exact .refl s

theorem sameProbe_ownerReadAlign (body : List Byte) : SameProbe s (ownerReadAlign body s).state := by
  unfold ownerReadAlign
  dsimp only
  repeat' split
  all_goals exact .refl s

theorem sameProbe_ownerEpochSet (body : List Byte) : SameProbe s (ownerEpochSet body s).state := by
  unfold ownerEpochSet
  split <;> exact .refl s

theorem sameProbe_ownerSchedule (body : List Byte) : SameProbe s (ownerSchedule body s).state := by
  unfold ownerSchedule
  split <;> exact .refl s

theorem sameProbe_ownerStandby (body : List Byte) : SameProbe s (ownerStandby body s).state := by
  unfold ownerStandby
  split
  · exact .refl s
  · split
    · exact sameProbe_modCar s _ fun k => .refl k
    · exact .refl s

theorem sameProbe_ownerMarkerLoad (body : List Byte) : SameProbe s (ownerMarkerLoad body s).state := by
  unfold ownerMarkerLoad
  dsimp only
  split
  · exact .refl s
  · next c _ =>
    split_ifs
    · exact .refl s
    · exact sameProbe_of_eq (by simp [Answer.refuse]) (by simp [Answer.refuse])
    · have hload := sameProbe_modCar s c (f := fun k => { k with marker := (carriedBits body).take (field body 1 1) })
        fun k => .refl k
      exact hload.trans (sameProbe_of_eq (by simp) (by simp))

theorem sameProbe_ownerMarkerClear (body : List Byte) : SameProbe s (ownerMarkerClear body s).state := by
  unfold ownerMarkerClear
  split
  · exact .refl s
  · exact sameProbe_modCar s _ fun k => .refl k

theorem sameProbe_ownerGuardTest (body : List Byte) : SameProbe s (ownerGuardTest body s).state := by
  unfold ownerGuardTest
  split
  · exact .refl s
  · exact sameProbe_modCar s _ fun k => .refl k

theorem sameProbe_ownerCounters (body : List Byte) : SameProbe s (ownerCounters body s).state :=
  sameProbe_of_eq (by simp [ownerCounters]) (by simp [ownerCounters])

theorem sameProbe_ownerClearAlarms (body : List Byte) : SameProbe s (ownerClearAlarms body s).state :=
  sameProbe_of_eq (by simp [ownerClearAlarms]) (by simp [ownerClearAlarms])

theorem sameProbe_clockReturn : SameProbe s (clockReturn s) := by
  unfold clockReturn
  split
  · exact sameProbe_of_eq (by simp) (by simp)
  · exact .refl s

theorem sameProbe_clockEdge : SameProbe s (clockEdge s) := by
  unfold clockEdge
  dsimp only
  split_ifs
  · exact sameProbe_clockReturn s
  · exact sameProbe_of_eq (by simp) (by simp)
  · exact sameProbe_of_eq (by simp) (by simp)

theorem sameProbe_completeStart : SameProbe s (completeStart s) := ⟨by simp, keysAndWords_completeStart s⟩

theorem sameProbe_epochPulse : SameProbe s (epochPulse s) := by
  have hstart (f : Tracker → Tracker) : SameProbe s (completeStart (modTracker f s)) :=
    SameProbe.trans (sameProbe_of_eq rfl fun _ => ⟨rfl, rfl⟩) (sameProbe_completeStart _)
  unfold epochPulse
  split
  · exact .refl s
  · exact hstart _
  all_goals
    split
    · exact hstart _
    · exact .refl s

theorem sameProbe_tableRoll : SameProbe s (tableRoll s) := by
  unfold tableRoll
  split
  · dsimp only
    split
    · refine ⟨by simp, fun c => ⟨by simp, ?_⟩⟩
      simp only [refreshWords, State.setCarriers_car, Quad.get_map]
      split
      · exact .inl rfl
      · exact .inr (wordFits_wordOf _ _)
    · exact .refl s
  · exact .refl s

theorem sameProbe_slotDecision (c : Carrier) : SameProbe s (slotDecision c s) := by
  unfold slotDecision
  split
  · next sl _ =>
    have hprogram (p : Program) (u : State) : KeysAndWords u (takeProgram c sl p (setProgram c sl p u)) :=
      KeysAndWords.trans (keysAndWords_of_eq (by simp)) (keysAndWords_takeProgram _ _ _ _)
    have hsteps (b : Option Batch) (u : State) : KeysAndWords u (decisionSteps c sl b u).2 := keysAndWords_of_eq (by simp)
    have hopen : KeysAndWords s (openSlot c sl (consumeClaim c sl (bringMaps c s))) := keysAndWords_of_eq (by simp)
    exact ⟨by simp, (hopen.trans (hsteps _ _)).trans (hprogram _ _)⟩
  · exact .refl s

theorem sameProbe_currentCycleAdvance (c : Carrier) : SameProbe s (currentCycleAdvance c s) := by
  unfold currentCycleAdvance
  repeat' split
  all_goals exact sameProbe_of_eq (by simp) (by simp)

theorem sameProbe_symbolEmit (c : Carrier) : SameProbe s (symbolEmit c s) := by
  unfold symbolEmit
  split
  · split
    · exact ⟨by simp, KeysAndWords.trans (keysAndWords_keyFirst _ _ _) (keysAndWords_emitSymbol _ _ _)⟩
    · exact .refl s
  · exact .refl s

theorem sameProbe_payloadEnd (c : Carrier) : SameProbe s (payloadEnd c s) := by
  have hcentre (r : Run) (k : CarrierState) : KeyAndWord k (centreAfter r k) := by
    unfold centreAfter
    split
    · exact ⟨id, .inr (wordFits_wordOf _ _)⟩
    · exact .refl k
  unfold payloadEnd
  split
  · next r _ =>
    split
    · have hc := sameProbe_modCar (modTimer c (fun t => { t with finishing := none }) s) c (hcentre r)
      refine SameProbe.trans (sameProbe_of_eq (by simp) (by simp)) (hc.trans (SameProbe.trans (sameProbe_of_eq ?_ ?_)
        ⟨by simp, keysAndWords_startTail c _⟩))
      · simp
      · simp
    · exact .refl s
  · exact .refl s

theorem sameProbe_tailExpiry (c : Carrier) : SameProbe s (tailExpiry c s) := by
  unfold tailExpiry
  split
  · exact ⟨by simp, keysAndWords_dropKey c s⟩
  · exact .refl s

theorem sameProbe_wakeExpiry (c : Carrier) : SameProbe s (wakeExpiry c s) := by
  unfold wakeExpiry
  split
  · exact sameProbe_modCar s c fun k => .refl k
  · exact .refl s

theorem sameProbe_stuckCarrier (c : Carrier) : SameProbe s (stuckCarrier c s) := by
  unfold stuckCarrier
  split
  · split
    · have hrun := sameProbe_modCar s c (f := fun k => { k with monitor := { k.monitor with presence := some s.now } })
        fun k => .refl k
      exact hrun.trans (sameProbe_of_eq (by simp) (by simp))
    · exact .refl s
  · exact .refl s

theorem sameProbe_downFrameRelay (f : Frame) : SameProbe s (downFrameRelay f s) := by
  unfold downFrameRelay offerRelay
  dsimp only
  repeat' split
  all_goals exact sameProbe_of_eq (by simp) (by simp)

theorem sameProbe_syncWordMatch (p : Port) (w : BitVec 16) : SameProbe s (syncWordMatch p w s) := by
  unfold syncWordMatch
  repeat' split
  all_goals exact .refl s

theorem sameProbe_transmits : SameProbe s (repeatTxStart s) ∧ SameProbe s (repeatTxEnd s) ∧ SameProbe s (upTxStart s) ∧
    SameProbe s (upTxEnd s) := by
  unfold repeatTxStart repeatTxEnd upTxStart upTxEnd
  refine ⟨?_, ?_, ?_, ?_⟩
  all_goals
    dsimp only
    repeat' split
  all_goals exact .refl s

end

/-- The commands that move the probe. -/
def movesProbe : Instr → Bool
  | .powerOn _ | .resetPin _ | .clockLost | .holdoverEpochStart | .restart _ | .probeStart _ | .probeAbort _ | .probeResult _
  | .rfSenseChange _ _ | .modSenseChange _ | .loadSettleEnd | .keyUpEnd | .probeEmission | .edgeWindowClose | .probePhaseEnd
  | .keyDownEnd | .loadReturnEnd | .observeEnd => true
  | _ => false

/-- Every other command leaves it. -/
theorem exec_sameProbe {i : Instr} {s t : State} (hi : movesProbe i = false) (he : exec i s = .next t) : SameProbe s t := by
  have hF := sameProbe_frameSafe s
  have request {owner : List Byte → State → Answer} (ho : ∀ s body, SameProbe s (owner body s).state) (kind : Byte) (len : Nat)
      (f : RxFrame) : SameProbe s (receiveUp kind (takeRequest len owner) f s) :=
    hF.request kind len (fun body _ h => h.trans (ho _ body)) f (.refl s)
  have traffic {owner : List Byte → State → State} (ho : ∀ s body, SameProbe s (owner body s)) (kind : Byte) (k : TrafficKind)
      (len : Nat) (f : RxFrame) : SameProbe s (receiveUp kind (takeTraffic k len owner) f s) :=
    hF.traffic kind k len (fun body _ h => h.trans (ho _ body)) f (.refl s)
  cases i <;> (injection he with he; subst he)
  case timeMark f => exact traffic sameProbe_ownerTimeMark _ _ _ f
  case batchHeader f => exact traffic sameProbe_ownerHeader _ _ _ f
  case batchBlock f => exact traffic sameProbe_ownerBlock _ _ _ f
  case cancel f => exact traffic sameProbe_ownerCancel _ _ _ f
  case unknownRequest k f =>
    show SameProbe s (unknownRequest k f s)
    unfold unknownRequest
    split
    · exact request (fun s _ => .refl s) _ _ f
    · exact .refl s
  case loadSite f => exact request sameProbe_ownerLoadSite _ _ f
  case enableService f => exact request sameProbe_ownerEnableService _ _ f
  case status f => exact request (fun s _ => .refl s) _ _ f
  case counters f => exact request sameProbe_ownerCounters _ _ f
  case clearAlarms f => exact request sameProbe_ownerClearAlarms _ _ f
  case loadAlign f => exact request sameProbe_ownerLoadAlign _ _ f
  case commitAlign f => exact request sameProbe_ownerCommitAlign _ _ f
  case readAlign f => exact request sameProbe_ownerReadAlign _ _ f
  case epochSet f => exact request sameProbe_ownerEpochSet _ _ f
  case schedule f => exact request sameProbe_ownerSchedule _ _ f
  case standby f => exact request sameProbe_ownerStandby _ _ f
  case markerLoad f => exact request sameProbe_ownerMarkerLoad _ _ f
  case markerClear f => exact request sameProbe_ownerMarkerClear _ _ f
  case guardTest f => exact request sameProbe_ownerGuardTest _ _ f
  case clockReturn => exact sameProbe_clockReturn s
  case referenceClockEdge => exact sameProbe_clockEdge s
  case epochPulse => exact sameProbe_epochPulse s
  case tableRoll => exact sameProbe_tableRoll s
  case slotDecision c => exact sameProbe_slotDecision s c
  case currentCycleAdvance c => exact sameProbe_currentCycleAdvance s c
  case slotEnd c => exact sameProbe_of_eq (by simp [slotEnd]) (by simp [slotEnd])
  case keyUp c => exact ⟨by simp, keysAndWords_keyUp c s⟩
  case symbolEmit c => exact sameProbe_symbolEmit s c
  case payloadEnd c => exact sameProbe_payloadEnd s c
  case tailExpiry c => exact sameProbe_tailExpiry s c
  case wakeExpiry c => exact sameProbe_wakeExpiry s c
  case stuckCarrier c => exact sameProbe_stuckCarrier s c
  case downFrameRelay f => exact sameProbe_downFrameRelay s f
  case syncWordMatch p w => exact sameProbe_syncWordMatch s p w
  case repeatTxStart => exact (sameProbe_transmits s).1
  case repeatTxEnd => exact (sameProbe_transmits s).2.1
  case upTxStart => exact (sameProbe_transmits s).2.2.1
  case upTxEnd => exact (sameProbe_transmits s).2.2.2
  all_goals cases hi

/-! ### What the probe's own operations keep -/

/-- With no key in PROBE and no abort under way, any phase but KEY_UP and PROBE is consistent with the keys. -/
theorem probeHoldsKey_of_none {s : State} (hk : ∀ c, (s.car c).key ≠ .probe)
    (ha : s.probe.aborting = true → s.probe.phase = .loadReturn) : ProbeHoldsKey s :=
  ⟨fun c hc => absurd hc (hk c), ha⟩

theorem ProbeSafe.noKey {s : State} (h : ProbeSafe s) (hu : s.probe.phase ≠ .keyUp) (hp : s.probe.phase ≠ .probe) (c : Carrier) :
    (s.car c).key ≠ .probe :=
  fun hc => (h.2.1 c hc).2.elim hu hp

/-- A running probe has no result and no flag set (R139). -/
theorem ProbeSafe.running {s : State} (h : ProbeSafe s) (hp : s.probe.phase ≠ .idle) :
    s.probe.result = none ∧ s.probe.done = false ∧ s.probe.aborted = false := by
  obtain ⟨⟨-, hresult, hrun⟩, -⟩ := h
  rw [hrun hp] at hresult
  simpa [hrun hp] using hresult.symm

/-- The end of a running probe whose key is returned (R146, R148). -/
theorem probeSafe_endProbe (r : ProbeRecord) {s : State} (hs : s.probe.result = none ∧ s.probe.done = false ∧ s.probe.aborted = false)
    (hk : ∀ c, (s.car c).key ≠ .probe) : ProbeSafe (endProbe r s) := by
  obtain ⟨hresult, hdone, haborted⟩ := hs
  unfold endProbe
  dsimp only
  split
  · refine ⟨⟨?_, ?_, ?_⟩, probeHoldsKey_of_none (fun c => by simpa using hk c) ?_⟩ <;> simp [hresult, hdone, haborted]
  · refine ⟨⟨?_, ?_, ?_⟩, probeHoldsKey_of_none (fun c => by simpa using hk c) ?_⟩
    · by_cases ho : r.outcome = .aborted <;> simp [ho]
    · by_cases ho : r.outcome = .aborted <;> simp [ho]
    · simp
    · simp

theorem probeSafe_abortProbe {s : State} (h : ProbeSafe s) : ProbeSafe (abortProbe s) := by
  have hreturned := abortProbe_spec h.2
  by_cases hq : s.probe.phase = .idle ∨ s.probe.aborting = true
  · rw [abortProbe, if_pos (by simpa [Probe.busy] using hq)]
    exact h
  obtain ⟨hrun, -⟩ := not_or.1 hq
  obtain ⟨hresult, hdone, haborted⟩ := h.running hrun
  have hrunning (hphase : (abortProbe s).probe.phase = .loadReturn) (h1 : (abortProbe s).probe.result = s.probe.result)
      (h2 : (abortProbe s).probe.done = s.probe.done) (h3 : (abortProbe s).probe.aborted = s.probe.aborted) :
      ProbeSafe (abortProbe s) := by
    rw [hresult] at h1
    rw [hdone] at h2
    rw [haborted] at h3
    exact ⟨⟨by simp [h2], by simp [h1, h2, h3], fun _ => h1⟩, probeHoldsKey_of_none hreturned fun _ => hphase⟩
  have habort : ¬ (!s.probe.busy || s.probe.aborting) = true := by simpa [Probe.busy] using hq
  cases hp : s.probe.phase with
  | idle => exact absurd hp hrun
  | observe =>
    have he : abortProbe s = endProbe (abortedRecord s.probe .observe) s := by
      simp only [abortProbe, if_neg habort, hp]
    rw [he]
    exact probeSafe_endProbe _ (h.running hrun) (h.noKey (by simp [hp]) (by simp [hp]))
  | loadReturn | loadSettle | keyUp | probe | keyDown =>
    refine hrunning ?_ ?_ ?_ ?_ <;> simp [abortProbe, habort, hp]

/-- A timing loss aborts the probe and releases every key, a probe's by the abort. -/
theorem probeSafe_timingLoss {s : State} (h : ProbeSafe s) : ProbeSafe (timingLoss s) := by
  refine SameProbe.probeSafe (s := abortProbe s) ⟨by simp [timingLoss], ?_⟩ (probeSafe_abortProbe h)
  exact KeysAndWords.trans (keysAndWords_releaseAll _) (keysAndWords_of_eq (by simp [timingLoss]))

theorem probeSafe_clockLost {s : State} (h : ProbeSafe s) : ProbeSafe (clockLost s) := by
  unfold clockLost
  split
  · exact h
  · exact SameProbe.probeSafe (sameProbe_of_eq (by simp) (by simp)) (probeSafe_timingLoss h)

theorem probeSafe_holdoverStart {s : State} (h : ProbeSafe s) : ProbeSafe (holdoverStart s) := by
  have hstart {u : State} (hu : ProbeSafe u) (f : Tracker → Tracker) : ProbeSafe (completeStart (modTracker f u)) :=
    (sameProbe_completeStart (modTracker f u)).probeSafe hu
  unfold holdoverStart
  split
  · have ht : ProbeSafe (latchIf (s.tracker.ref = .locked) .holdover (modTracker Tracker.holdOver s)) :=
      SameProbe.probeSafe (s := s) (sameProbe_of_eq (by simp) (by simp)) h
    have hl : ProbeSafe (latch .holdoverExpired (timingLoss
        (latchIf (s.tracker.ref = .locked) .holdover (modTracker Tracker.holdOver s)))) :=
      SameProbe.probeSafe (sameProbe_of_eq (by simp) (by simp)) (probeSafe_timingLoss ht)
    dsimp only
    split_ifs
    · exact hstart ht _
    · unfold expireHoldover
      dsimp only
      split_ifs
      · exact SameProbe.probeSafe (sameProbe_of_eq (by simp) (by simp)) (hstart hl Tracker.expire)
      · exact hstart (SameProbe.probeSafe (sameProbe_of_eq (by simp) (by simp)) hl) _
  · exact h

/-- The result and its flags cleared (R140, R149, R150), the no-result mark as it may be. -/
theorem probeSafe_cleared {s t : State} (h : ProbeSafe s) (hk : KeysAndWords s t) {m : Bool}
    (hp : t.probe = { s.probe with result := none, done := false, aborted := false, noResult := m }) : ProbeSafe t := by
  obtain ⟨-, hkeys, habort⟩ := h
  refine ⟨⟨?_, ?_, fun _ => ?_⟩, fun c hc => ?_, fun ha => ?_⟩ <;> rw [hp] at *
  · rfl
  · rfl
  · exact hkeys c ((hk c).1 hc)
  · exact habort ha

theorem probeSafe_ownerRestart (body : List Byte) {s : State} (h : ProbeSafe s) : ProbeSafe (ownerRestart body s).state := by
  unfold ownerRestart
  split
  · exact h
  · refine probeSafe_cleared (m := (abortProbe s).probe.noResult || (abortProbe s).probe.busy) (probeSafe_abortProbe h) ?_ ?_
    · refine KeysAndWords.trans (keysAndWords_of_eq ?_) (KeysAndWords.trans (keysAndWords_releaseAll (restartProbe s))
        (keysAndWords_of_eq ?_))
      · simp [restartProbe]
      · simp [restartPart, restartCarrier]
    · simp [restartPart, restartProbe]

theorem probeSafe_clearResult {s : State} (h : ProbeSafe s) : ProbeSafe (clearResult s) :=
  probeSafe_cleared (m := s.probe.noResult) h (.refl s) rfl

theorem probeSafe_ownerProbeStart (body : List Byte) {s : State} (h : ProbeSafe s) : ProbeSafe (ownerProbeStart body s).state := by
  have hc := probeSafe_clearResult h
  have hstart (c : Carrier) (m : ProbeMode) (a : Bool) (hidle : s.probe.phase = .idle) : ProbeSafe (startProbe c m a (clearResult s)) := by
    have hkeys := hc.noKey (by simp [clearResult, hidle]) (by simp [clearResult, hidle])
    cases m with
    | path =>
      refine ⟨⟨rfl, rfl, fun _ => rfl⟩, probeHoldsKey_of_none (fun d => ?_) fun ha => by cases ha⟩
      rw [(startProbe_car c .path a (clearResult s) d).2.2.2.2.1]
      exact hkeys d
    | quiet => exact ⟨⟨rfl, rfl, fun _ => rfl⟩, probeHoldsKey_of_none hkeys fun ha => by cases ha⟩
  unfold ownerProbeStart
  dsimp only
  split
  · split
    · exact hc
    · next hr =>
      refine hstart _ _ _ ?_
      by_contra hb
      simp [probeRefusal, Probe.busy, clearResult, hb] at hr
  · exact hc

theorem probeSafe_ownerProbeAbort (body : List Byte) {s : State} (h : ProbeSafe s) : ProbeSafe (ownerProbeAbort body s).state := by
  unfold ownerProbeAbort
  split
  · exact probeSafe_abortProbe h
  · exact h

theorem probeSafe_ownerProbeResult (body : List Byte) {s : State} (h : ProbeSafe s) : ProbeSafe (ownerProbeResult body s).state := by
  unfold ownerProbeResult
  dsimp only
  split
  · exact probeSafe_clearResult h
  · exact h

/-- Another probe with the same phase, carrier, flags and abort, and a result exactly where there was one. -/
theorem probeSafe_of_probe {s t : State} (h : ProbeSafe s) (hk : KeysAndWords s t) (hphase : t.probe.phase = s.probe.phase)
    (hcarrier : t.probe.carrier = s.probe.carrier) (hdone : t.probe.done = s.probe.done)
    (haborted : t.probe.aborted = s.probe.aborted) (haborting : t.probe.aborting = s.probe.aborting)
    (hresult : t.probe.result.isSome = s.probe.result.isSome) : ProbeSafe t := by
  obtain ⟨⟨hflags, hsome, hnone⟩, hkeys, habort⟩ := h
  unfold ProbeSafe ProbeFlags ProbeHoldsKey
  rw [hphase, hcarrier, hdone, haborted, haborting, hresult]
  refine ⟨⟨hflags, hsome, fun hp => ?_⟩, fun c hc => hkeys c ((hk c).1 hc), habort⟩
  rw [← Option.not_isSome_iff_eq_none, hresult, hnone hp]
  simp

theorem probeSafe_rfSenseChange (c : Carrier) (p : Bool) {s : State} (h : ProbeSafe s) : ProbeSafe (rfSenseChange c p s) := by
  have hpin := (sameProbe_modCar s c (f := fun k => { k with monitor := { k.monitor with rfPin := p } }) fun k => .refl k).probeSafe h
  unfold rfSenseChange
  dsimp only
  split_ifs
  · exact hpin
  · have hsampled := (sameProbe_modCar _ c (f := sampleChange s.now p) fun k => .refl k).probeSafe hpin
    have hseen {u : State} (hu : ProbeSafe u) : ProbeSafe (seeRf c p u) := by
      refine probeSafe_of_probe hu (keysAndWords_of_eq (by simp)) ?_ ?_ ?_ ?_ ?_ ?_
      all_goals
        unfold seeRf
        split_ifs <;> simp
    have hchecked (u : State) : SameProbe u (recheck c p u) := sameProbe_of_eq (by simp) (by simp)
    exact (hchecked _).probeSafe (hseen hsampled)

theorem probeSafe_setSample (i : Nat) (x : Sample) {s : State} (h : ProbeSafe s) : ProbeSafe (setSample i x s) :=
  probeSafe_of_probe h (.refl s) rfl rfl rfl rfl rfl rfl

theorem probeSafe_modSenseChange (c : Carrier) {s : State} (h : ProbeSafe s) : ProbeSafe (modSenseChange c s) := by
  have hpin := (sameProbe_modCar s c (f := fun k => { k with modPin := !k.modPin }) fun k => .refl k).probeSafe h
  unfold modSenseChange takeSample
  dsimp only
  split
  · split
    · split
      · exact probeSafe_setSample _ _ hpin
      · exact hpin
    · exact hpin
  · exact hpin

theorem probeSafe_edgeWindowClose {s : State} (h : ProbeSafe s) : ProbeSafe (edgeWindowClose s) := by
  unfold edgeWindowClose
  split
  · split
    · exact probeSafe_setSample _ _ h
    · exact h
  · exact h

/-! ### The phases (R142 to R147) -/

/-- A running probe, not aborting, in another phase: its carrier's key alone may be in PROBE, in KEY_UP and PROBE. -/
theorem probeSafe_phase {s t : State} (h : ProbeSafe s) (hrun : s.probe.phase ≠ .idle)
    (hresult : t.probe.result = s.probe.result) (hdone : t.probe.done = s.probe.done) (haborted : t.probe.aborted = s.probe.aborted)
    (hkeys : ∀ c, (t.car c).key = .probe → t.probe.carrier = c ∧ (t.probe.phase = .keyUp ∨ t.probe.phase = .probe))
    (habort : t.probe.aborting = true → t.probe.phase = .loadReturn) : ProbeSafe t := by
  obtain ⟨h1, h2, h3⟩ := h.running hrun
  refine ⟨⟨?_, ?_, fun _ => ?_⟩, hkeys, habort⟩
  · simp [hdone, h2]
  · simp [hresult, hdone, haborted, h1, h2, h3]
  · rw [hresult, h1]

theorem phaseDue_phase {p : ProbePhase} {s : State} (h : phaseDue p s = true) : s.probe.phase = p := by
  unfold phaseDue at h
  exact of_decide_eq_true (Bool.and_eq_true _ _ ▸ h).1

/-- A probe that is not in LOAD_RETURN is not aborting (R148). -/
theorem ProbeSafe.notAborting {s : State} (h : ProbeSafe s) {p : ProbePhase} (hp : s.probe.phase = p) (hne : p ≠ .loadReturn) :
    s.probe.aborting = false := by
  by_contra ha
  exact hne (hp ▸ h.2.2 (by simpa using ha))

theorem keysAndWords_driveProbe (v : Int) (s : State) : KeysAndWords s (driveProbe v s) := by
  have hm : KeysAndWords s (s.modCar s.probe.carrier fun k => { k with word := wordOf s.probe.words v }) :=
    keysAndWords_modCar _ ⟨id, .inr (wordFits_wordOf _ _)⟩
  unfold driveProbe
  dsimp only
  split
  · exact hm.trans (keysAndWords_of_eq (by simp))
  · exact hm

theorem probeSafe_beginProbes {s : State} (h : ProbeSafe s) (hp : s.probe.phase = .keyUp) : ProbeSafe (beginProbes s) := by
  refine probeSafe_phase h (by simp [hp]) (by simp [beginProbes]) (by simp [beginProbes]) (by simp [beginProbes]) (fun c hc => ?_)
    fun ha => ?_
  · have hold : (s.car c).key = .probe := by simpa [beginProbes] using hc
    exact ⟨by simpa [beginProbes] using (h.2.1 c hold).1, .inr (by simp [beginProbes])⟩
  · rw [show (beginProbes s).probe.aborting = s.probe.aborting by simp [beginProbes], h.notAborting hp (by simp)] at ha
    cases ha

theorem probeSafe_loadSettleEnd {s : State} (h : ProbeSafe s) : ProbeSafe (loadSettleEnd s) := by
  unfold loadSettleEnd
  split
  case isFalse => exact h
  next hd =>
  have hp := phaseDue_phase hd
  have hkey := h.noKey (by simp [hp]) (by simp [hp])
  dsimp only
  set t := driveProbe (-3) ((s.setProbe { s.probe with
    phase := .keyUp, phaseEnd := some (tickAdd s.now ((s.par s.probe.carrier).lead * Config.msTicks))
    words := activeWords s.probe.carrier s }).modCar s.probe.carrier fun k =>
      { k with key := .probe, monitor := { k.monitor with presence := none } }) with ht
  have hkeyUp : ProbeSafe t := by
    refine probeSafe_phase h (by simp [hp]) (by simp [ht]) (by simp [ht]) (by simp [ht]) (fun c hc => ⟨?_, .inl (by simp [ht])⟩)
      fun ha => ?_
    · by_contra hne
      rw [show t.probe.carrier = s.probe.carrier by simp [ht]] at hne
      refine hkey c ?_
      rw [ht, (driveProbe_car _ _ c).2.2.2.1, State.modCar_car_other _ _ (Ne.symm hne)] at hc
      exact hc
    · rw [show t.probe.aborting = s.probe.aborting by simp [ht], h.notAborting hp (by simp)] at ha
      cases ha
  split
  · exact probeSafe_beginProbes hkeyUp (by simp [ht])
  · exact hkeyUp

theorem probeSafe_keyUpEnd {s : State} (h : ProbeSafe s) : ProbeSafe (keyUpEnd s) := by
  unfold keyUpEnd
  split
  · next hd => exact probeSafe_beginProbes h (phaseDue_phase hd)
  · exact h

theorem probeSafe_probeEmission {s : State} (h : ProbeSafe s) : ProbeSafe (probeEmission s) := by
  unfold probeEmission
  split
  · split
    · exact probeSafe_of_probe h (keysAndWords_driveProbe _ (s.setProbe { s.probe with emitted := s.probe.emitted + 1 }))
        (by simp) (by simp) (by simp) (by simp) (by simp) (by simp)
    · exact h
  · exact h

theorem returnKey_key {s : State} (h : ProbeHoldsKey s) (c : Carrier) : ((returnKey s).car c).key ≠ .probe := by
  intro hc
  unfold returnKey at hc
  split at hc
  · by_cases hd : c = s.probe.carrier
    · subst hd
      rw [dropKey_same] at hc
      cases hc
    · rw [(dropKey_keeps _ _).2.2.2.2.2.2.2.2.2.2.2 c hd] at hc
      exact hd (h.1 c hc).1.symm
  · next hn =>
    have := (h.1 c hc).1
    subst this
    exact hn hc

theorem probeSafe_probePhaseEnd {s : State} (h : ProbeSafe s) : ProbeSafe (probePhaseEnd s) := by
  unfold probePhaseEnd
  split
  · next hd =>
    have hp := phaseDue_phase hd
    refine probeSafe_phase h (by simp [hp]) (by simp) (by simp) (by simp) (fun c hc => absurd hc ?_) fun ha => ?_
    · exact returnKey_key h.2 c
    · rw [State.setProbe_probe] at ha
      simp only [returnKey_keeps] at ha
      rw [h.notAborting hp (by simp)] at ha
      cases ha
  · exact h

theorem probeSafe_keyDownEnd {s : State} (h : ProbeSafe s) : ProbeSafe (keyDownEnd s) := by
  unfold keyDownEnd
  split
  · next hd =>
    have hp := phaseDue_phase hd
    exact probeSafe_phase h (by simp [hp]) rfl rfl rfl (fun c hc => absurd hc (h.noKey (by simp [hp]) (by simp [hp]) c)) fun _ => rfl
  · exact h

theorem probeSafe_loadReturnEnd {s : State} (h : ProbeSafe s) : ProbeSafe (loadReturnEnd s) := by
  unfold loadReturnEnd
  split
  case isFalse => exact h
  next hd =>
  have hp := phaseDue_phase hd
  have hload := sameProbe_modCar s s.probe.carrier (f := fun k => { k with load := false }) fun k => .refl k
  have hkeys (c : Carrier) : ((s.modCar s.probe.carrier fun k => { k with load := false }).car c).key ≠ .probe :=
    fun hc => h.noKey (by simp [hp]) (by simp [hp]) c ((hload.2 c).1 hc)
  have hrun := h.running (by simp [hp])
  dsimp only
  split_ifs
  · exact probeSafe_endProbe _ hrun hkeys
  · exact probeSafe_endProbe _ hrun hkeys
  · refine probeSafe_endProbe _ ?_ fun c => ?_
    · simpa using hrun
    · simpa using hkeys c

theorem probeSafe_observeEnd {s : State} (h : ProbeSafe s) : ProbeSafe (observeEnd s) := by
  unfold observeEnd
  split
  · next hd =>
    have hp := phaseDue_phase hd
    exact probeSafe_endProbe _ (h.running (by simp [hp])) (h.noKey (by simp [hp]) (by simp [hp]))
  · exact h

theorem probeSafe_resetPart (straps : BitVec 12) (cause : ResetCause) (s : State) : ProbeSafe (resetPart straps cause s) := by
  refine ⟨⟨rfl, rfl, fun _ => rfl⟩, probeHoldsKey_of_none (fun c => ?_) fun ha => by cases ha⟩
  rw [show (resetPart straps cause s).car c = CarrierState.reset (s.car c).monitor.rfPin (s.car c).modPin from Quad.get_map _ _ _]
  exact fun h => by cases h

theorem probeSafe_frameSafe : FrameSafe ProbeSafe where
  heard _ _ _ h := h
  counted _ _ h := h
  offered _ _ h := SameProbe.probeSafe (sameProbe_of_eq (by simp) (by simp)) h

/-- Settles O6. A command that moves the probe keeps flags and key together; every other leaves the probe and puts no key in
PROBE. -/
theorem stepKeepsProbeConsistent : Obligations.StepKeepsProbeConsistent := by
  unfold Obligations.StepKeepsProbeConsistent
  intro s t hflags hkey hs
  refine step_keeps (P := ProbeSafe) (fun _ _ h => h) (fun i s t h he => ?_) ⟨hflags, hkey⟩ hs
  by_cases hi : movesProbe i = false
  · exact (exec_sameProbe hi he).probeSafe h
  have hF := probeSafe_frameSafe
  cases i <;> first | exact absurd rfl hi | (injection he with he; subst he)
  case powerOn straps => exact probeSafe_resetPart straps .powerOn s
  case resetPin straps => exact probeSafe_resetPart straps .resetPin s
  case clockLost => exact probeSafe_clockLost h
  case holdoverEpochStart => exact probeSafe_holdoverStart h
  case restart f => exact hF.request _ _ (fun body _ => probeSafe_ownerRestart body) f h
  case probeStart f => exact hF.request _ _ (fun body _ => probeSafe_ownerProbeStart body) f h
  case probeAbort f => exact hF.request _ _ (fun body _ => probeSafe_ownerProbeAbort body) f h
  case probeResult f => exact hF.request _ _ (fun body _ => probeSafe_ownerProbeResult body) f h
  case rfSenseChange c p => exact probeSafe_rfSenseChange c p h
  case modSenseChange c => exact probeSafe_modSenseChange c h
  case loadSettleEnd => exact probeSafe_loadSettleEnd h
  case keyUpEnd => exact probeSafe_keyUpEnd h
  case probeEmission => exact probeSafe_probeEmission h
  case edgeWindowClose => exact probeSafe_edgeWindowClose h
  case probePhaseEnd => exact probeSafe_probePhaseEnd h
  case keyDownEnd => exact probeSafe_keyDownEnd h
  case loadReturnEnd => exact probeSafe_loadReturnEnd h
  case observeEnd => exact probeSafe_observeEnd h

end Sys2Proof.Machine
end

section
/-! Every step keeps the driven words in their range and the lists in their bounds (O4). -/

namespace Sys2Proof.Machine

open Sys2Proof.Safety

/-! ### Words (R37) -/

theorem KeysAndWords.words {s t : State} (h : KeysAndWords s t) (hs : WordsInRange s) : WordsInRange t := by
  intro c
  rcases (h c).2 with he | hf
  · rw [he]
    exact hs c
  · exact hf

theorem words_of_eq {s t : State} (h : ∀ c, (t.car c).word = (s.car c).word) (hs : WordsInRange s) : WordsInRange t :=
  fun c => h c ▸ hs c

theorem keysAndWords_returnKey (s : State) : KeysAndWords s (returnKey s) := by
  unfold returnKey
  split
  · exact keysAndWords_dropKey _ s
  · exact .refl s

theorem keysAndWords_abortProbe (s : State) : KeysAndWords s (abortProbe s) := by
  unfold abortProbe
  split
  · exact .refl s
  · split
    · exact keysAndWords_of_eq (by simp)
    · exact .refl s
    · exact keysAndWords_returnKey s

theorem keysAndWords_timingLoss (s : State) : KeysAndWords s (timingLoss s) :=
  ((keysAndWords_abortProbe s).trans (keysAndWords_releaseAll _)).trans (keysAndWords_of_eq (by simp [timingLoss]))

theorem keysAndWords_clockLost (s : State) : KeysAndWords s (clockLost s) := by
  unfold clockLost
  split
  · exact .refl s
  · exact (keysAndWords_timingLoss s).trans (keysAndWords_of_eq (by simp))

theorem keysAndWords_holdoverStart (s : State) : KeysAndWords s (holdoverStart s) := by
  have hstart (f : Tracker → Tracker) (u : State) : KeysAndWords u (completeStart (modTracker f u)) :=
    KeysAndWords.trans (keysAndWords_of_eq (by simp)) (keysAndWords_completeStart _)
  unfold holdoverStart
  split
  case isFalse => exact .refl s
  have ht : KeysAndWords s (latchIf (s.tracker.ref = .locked) .holdover (modTracker Tracker.holdOver s)) :=
    keysAndWords_of_eq (by simp)
  have hl (u : State) : KeysAndWords u (latch .holdoverExpired (timingLoss u)) :=
    (keysAndWords_timingLoss u).trans (keysAndWords_of_eq (by simp))
  have hr (u : State) : KeysAndWords u (recordAllOpen u) := keysAndWords_of_eq (by simp)
  dsimp only
  split_ifs
  · exact ht.trans (hstart _ _)
  · unfold expireHoldover
    dsimp only
    split_ifs
    · exact ((ht.trans (hl _)).trans (hstart _ _)).trans (hr _)
    · exact ((ht.trans (hl _)).trans (hr _)).trans (hstart _ _)

theorem keysAndWords_ownerRestart (body : List Byte) (s : State) : KeysAndWords s (ownerRestart body s).state := by
  unfold ownerRestart
  split
  · exact .refl s
  · refine ((keysAndWords_abortProbe s).trans (KeysAndWords.trans (t := restartProbe s) (keysAndWords_of_eq ?_)
      (keysAndWords_releaseAll _))).trans (keysAndWords_of_eq ?_)
    · simp [restartProbe]
    · simp [restartPart, restartCarrier]

theorem words_beginProbes {s : State} (h : WordsInRange s) : WordsInRange (beginProbes s) :=
  (keysAndWords_driveProbe _ _).words (words_of_eq (by simp) h)

theorem words_loadSettleEnd {s : State} (h : WordsInRange s) : WordsInRange (loadSettleEnd s) := by
  unfold loadSettleEnd
  split
  · dsimp only
    have hkey : WordsInRange (driveProbe (-3) ((s.setProbe { s.probe with
        phase := .keyUp, phaseEnd := some (tickAdd s.now ((s.par s.probe.carrier).lead * Config.msTicks))
        words := activeWords s.probe.carrier s }).modCar s.probe.carrier fun k =>
          { k with key := .probe, monitor := { k.monitor with presence := none } })) := by
      refine (keysAndWords_driveProbe _ _).words (words_of_eq (s := s) (fun c => ?_) h)
      rw [State.modCar_car]
      split
      · next hc => subst hc; rfl
      · rfl
    split
    · exact words_beginProbes hkey
    · exact hkey
  · exact h

/-! ### Lists (R7, R19, R130, R139, R158, R159) -/

/-- The queues, the marker sequences, the epoch history, the mismatch run and the probe's samples lie in their bounds. -/
def ListsFit (s : State) : Prop :=
  s.link.own.length ≤ 8 ∧ s.link.relay.length ≤ 8 ∧ (∀ c, (s.car c).marker.length ≤ 64) ∧ s.tracker.history.length ≤ 8 ∧
    s.tracker.mismatchRun ≤ 3 ∧ s.probe.samples.length = 16

/-- None of those lists is another. -/
def SameLists (s t : State) : Prop :=
  t.link.own = s.link.own ∧ t.link.relay = s.link.relay ∧ (∀ c, (t.car c).marker = (s.car c).marker) ∧
    t.tracker.history = s.tracker.history ∧ t.tracker.mismatchRun = s.tracker.mismatchRun ∧ t.probe.samples = s.probe.samples

theorem SameLists.refl (s : State) : SameLists s s := ⟨rfl, rfl, fun _ => rfl, rfl, rfl, rfl⟩

theorem SameLists.trans {s t u : State} (h : SameLists s t) (h' : SameLists t u) : SameLists s u := by
  simp_all [SameLists]

theorem SameLists.fit {s t : State} (h : SameLists s t) (hs : ListsFit s) : ListsFit t := by
  obtain ⟨ho, hr, hm, hh, hn, hp⟩ := h
  unfold ListsFit at *
  rw [ho, hr, hh, hn, hp]
  simp only [hm]
  exact hs

theorem sameLists_modCar (c : Carrier) {f : CarrierState → CarrierState} (hf : ∀ k, (f k).marker = k.marker) (s : State) :
    SameLists s (s.modCar c f) := by
  refine ⟨rfl, rfl, fun d => ?_, rfl, rfl, rfl⟩
  rw [State.modCar_car]
  split
  · next hc => rw [hc, hf]
  · rfl

theorem listsFit_offerOwn (f : Frame) {s : State} (h : ListsFit s) : ListsFit (offerOwn f s) := by
  by_cases hroom : s.link.own.length < 8
  · rw [offerOwn_room hroom]
    obtain ⟨-, hr, hrest⟩ := h
    refine ⟨?_, ?_, hrest⟩
    · simpa using hroom
    · simpa using hr
  · rw [offerOwn_full (by omega)]
    exact SameLists.fit (by simp [SameLists]) h

theorem listsFit_frameSafe : FrameSafe ListsFit where
  heard _ _ _ h := h
  counted _ _ h := h
  offered f _ h := listsFit_offerOwn f h

/-- Another tracker, its history and its mismatch run in their bounds. -/
theorem listsFit_modTracker {s : State} (h : ListsFit s) {f : Tracker → Tracker} (hh : (f s.tracker).history.length ≤ 8)
    (hn : (f s.tracker).mismatchRun ≤ 3) : ListsFit (modTracker f s) := by
  obtain ⟨h1, h2, h3, -, -, h6⟩ := h
  exact ⟨h1, h2, h3, hh, hn, h6⟩

theorem joinHistory_length (d : Nat) (l : List Nat) : (joinHistory d l).length ≤ 8 := List.length_take_le _ _

theorem mismatch_run_le (n e : EpochNo) (t : Tracker) : (t.mismatch n e).mismatchRun ≤ 3 := by
  unfold Tracker.mismatch Tracker.nextRun
  dsimp only
  split <;> omega

theorem listsFit_ownerTimeMark (body : List Byte) {s : State} (h : ListsFit s) : ListsFit (ownerTimeMark body s) := by
  have hh := h.2.2.2.1
  have hn := h.2.2.2.2.1
  unfold ownerTimeMark takeMark
  split
  · exact SameLists.fit (by simp [SameLists]) h
  · split
    · refine listsFit_modTracker h ?_ ?_
      all_goals
        unfold Tracker.setMark
        split <;> assumption
    · split
      · exact listsFit_modTracker h hh (Nat.zero_le _)
      · have hlatch (u : State) : SameLists u (latch .epochMismatch u) := by simp [SameLists]
        exact (hlatch _).fit (listsFit_modTracker h hh (mismatch_run_le _ _ _))

theorem tracker_acquired_length (t : Tracker) : t.acquired.length ≤ 8 := by
  unfold Tracker.acquired
  split
  · exact Nat.zero_le _
  · split
    · exact joinHistory_length _ _
    · exact Nat.zero_le _

theorem tracker_accepted_length {t : Tracker} (h : t.history.length ≤ 8) : t.accepted.length ≤ 8 := by
  unfold Tracker.accepted
  split
  · split
    · exact joinHistory_length _ _
    · exact h
  · exact h

theorem tracker_predict_lists (w : Nat) (t : Tracker) :
    (t.predict w).history = t.history ∧ (t.predict w).mismatchRun = t.mismatchRun := by
  unfold Tracker.predict
  split <;> exact ⟨rfl, rfl⟩

theorem tracker_acquire_lists (w : Nat) (t : Tracker) :
    (t.acquire w).history = t.acquired ∧ (t.acquire w).mismatchRun = t.mismatchRun := by
  unfold Tracker.acquire
  dsimp only
  split
  · exact tracker_predict_lists _ _
  · exact ⟨rfl, rfl⟩

theorem tracker_accept_lists (w : Nat) (t : Tracker) :
    (t.accept w).history = t.accepted ∧ (t.accept w).mismatchRun = t.mismatchRun := tracker_predict_lists _ _

theorem tracker_holdOver_lists (t : Tracker) : t.holdOver.history = t.history ∧ t.holdOver.mismatchRun = t.mismatchRun := by
  unfold Tracker.holdOver
  split <;> exact ⟨rfl, rfl⟩

theorem tracker_takeNumber_lists (t : Tracker) :
    t.takeNumber.history = t.history ∧ (t.takeNumber.mismatchRun = t.mismatchRun ∨ t.takeNumber.mismatchRun = 0) := by
  unfold Tracker.takeNumber
  split
  · exact ⟨rfl, .inr rfl⟩
  · exact ⟨rfl, .inl rfl⟩

theorem listsFit_reportCycle (c : Carrier) (e : EpochNo) (r : Bool) {s : State} (h : ListsFit s) :
    ListsFit (reportCycle c e r s) := by
  have hsend {u : State} (hu : ListsFit u) : ListsFit (sendReport c u) := by
    unfold sendReport
    split
    · split
      · exact listsFit_offerOwn _ hu
      · exact hu
    · exact hu
  have hrec (p : OpenSlot → Bool) : ListsFit (recordSlots c p (noteClosed c p s)) :=
    SameLists.fit (by simp [SameLists]) h
  have hempty (f : Scheduler → Scheduler) (u : State) : SameLists u (modSched c f u) := by simp [SameLists]
  have hrelabel {u : State} (hu : ListsFit u) : ListsFit (relabel c e (sendReport c u)) :=
    SameLists.fit (by simp [SameLists]) (hsend hu)
  unfold reportCycle
  dsimp only
  split_ifs
  · exact hrelabel ((hempty _ _).fit (hrec _))
  · exact hrelabel (hrec _)

theorem listsFit_completeStart {s : State} (h : ListsFit s) : ListsFit (completeStart s) := by
  have hn : ListsFit (modTracker Tracker.takeNumber s) := by
    obtain ⟨hh, hr⟩ := tracker_takeNumber_lists s.tracker
    refine listsFit_modTracker h (hh ▸ h.2.2.2.1) ?_
    rcases hr with he | he
    · exact he ▸ h.2.2.2.2.1
    · omega
  have hreports {u : State} (hu : ListsFit u) (r : Bool) : ListsFit (startReports r u) := by
    unfold startReports
    split
    · split
      · exact listsFit_reportCycle _ _ _ (listsFit_reportCycle _ _ _ (listsFit_reportCycle _ _ _ (listsFit_reportCycle _ _ _ hu)))
      · exact hu
    · exact hu
  have hmaps (u : State) : SameLists u (bringAllMaps u) := by simp [SameLists]
  unfold completeStart
  dsimp only
  split_ifs
  · exact (hmaps _).fit (hreports (SameLists.fit (by simp [SameLists]) hn) _)
  · exact (hmaps _).fit (hreports hn _)

theorem listsFit_epochPulse {s : State} (h : ListsFit s) : ListsFit (epochPulse s) := by
  have hwindow : ListsFit (if s.tracker.inWindow then completeStart (modTracker (Tracker.accept s.mgmt.params.w) s)
      else countStrayPulse s) := by
    split
    · obtain ⟨hh, hn⟩ := tracker_accept_lists s.mgmt.params.w s.tracker
      exact listsFit_completeStart (listsFit_modTracker h (hh ▸ tracker_accepted_length h.2.2.2.1) (hn ▸ h.2.2.2.2.1))
    · exact SameLists.fit (by simp [SameLists]) h
  unfold epochPulse
  split
  · exact h
  · obtain ⟨hh, hn⟩ := tracker_acquire_lists s.mgmt.params.w s.tracker
    exact listsFit_completeStart (listsFit_modTracker h (hh ▸ tracker_acquired_length _) (hn ▸ h.2.2.2.2.1))
  · exact hwindow
  · exact hwindow

theorem listsFit_holdoverStart {s : State} (h : ListsFit s) : ListsFit (holdoverStart s) := by
  unfold holdoverStart
  split
  case isFalse => exact h
  have ht : ListsFit (latchIf (s.tracker.ref = .locked) .holdover (modTracker Tracker.holdOver s)) := by
    obtain ⟨hh, hn⟩ := tracker_holdOver_lists s.tracker
    exact SameLists.fit (by simp [SameLists]) (listsFit_modTracker h (hh ▸ h.2.2.2.1) (hn ▸ h.2.2.2.2.1))
  have hexpire {u : State} (hu : ListsFit u) : ListsFit (modTracker Tracker.expire u) :=
    listsFit_modTracker hu (Nat.zero_le _) hu.2.2.2.2.1
  have hrec (u : State) : SameLists u (recordAllOpen u) := by simp [SameLists]
  have hloss (u : State) : SameLists u (latch .holdoverExpired (timingLoss u)) := by simp [SameLists]
  dsimp only
  split_ifs
  · obtain ⟨hh, hn⟩ := tracker_predict_lists s.mgmt.params.w
      (latchIf (s.tracker.ref = .locked) .holdover (modTracker Tracker.holdOver s)).tracker
    exact listsFit_completeStart (listsFit_modTracker ht (hh ▸ ht.2.2.2.1) (hn ▸ ht.2.2.2.2.1))
  · unfold expireHoldover
    dsimp only
    split_ifs
    · exact (hrec _).fit (listsFit_completeStart (hexpire ((hloss _).fit ht)))
    · exact listsFit_completeStart (hexpire ((hrec _).fit ((hloss _).fit ht)))

theorem listsFit_clockLost {s : State} (h : ListsFit s) : ListsFit (clockLost s) := by
  unfold clockLost
  split
  · exact h
  · have hrec : ListsFit (clearMonitors (recordAllOpen (timingLoss s))) := SameLists.fit (by simp [SameLists]) h
    exact SameLists.fit (by simp [SameLists]) (listsFit_modTracker hrec (f := Tracker.lose) (Nat.zero_le _) (Nat.zero_le _))

theorem listsFit_clockReturn {s : State} (h : ListsFit s) : ListsFit (clockReturn s) := by
  unfold clockReturn
  split
  · have hadvanced : ListsFit (advanceTick s) := h
    have hsampled (u : State) : SameLists u ((sampleRf u).setFirstEdge false) := by simp [SameLists]
    exact (hsampled _).fit (listsFit_modTracker hadvanced (Nat.zero_le _) hadvanced.2.2.2.2.1)
  · exact h

theorem listsFit_clockEdge {s : State} (h : ListsFit s) : ListsFit (clockEdge s) := by
  have ht : ListsFit (advanceTick s) := h
  unfold clockEdge
  dsimp only
  split_ifs
  · exact listsFit_clockReturn h
  · exact SameLists.fit (by simp [SameLists]) ht
  · exact ht

/-- One marker sequence, in its bound, in another's place. -/
theorem listsFit_marker {s : State} (h : ListsFit s) (c : Carrier) {f : CarrierState → CarrierState}
    (hf : (f (s.car c)).marker.length ≤ 64) : ListsFit (s.modCar c f) := by
  obtain ⟨h1, h2, h3, hrest⟩ := h
  refine ⟨h1, h2, fun d => ?_, hrest⟩
  rw [State.modCar_car]
  split
  · exact hf
  · exact h3 d

theorem listsFit_ownerMarkerLoad (body : List Byte) {s : State} (h : ListsFit s) : ListsFit (ownerMarkerLoad body s).state := by
  unfold ownerMarkerLoad
  dsimp only
  split
  · exact h
  · next c _ =>
    split_ifs with hlen
    · exact h
    · exact SameLists.fit (by simp [SameLists, Answer.refuse]) h
    · have hload := listsFit_marker h c (f := fun k => { k with marker := (carriedBits body).take (field body 1 1) }) (by
        simp only [Bool.not_eq_true, Bool.not_eq_false', Bool.and_eq_true, decide_eq_true_eq] at hlen
        simp only [List.length_take]
        omega)
      exact SameLists.fit (by simp [SameLists]) hload

theorem listsFit_ownerMarkerClear (body : List Byte) {s : State} (h : ListsFit s) : ListsFit (ownerMarkerClear body s).state := by
  unfold ownerMarkerClear
  split
  · exact h
  · exact listsFit_marker h _ (Nat.zero_le _)

theorem listsFit_slotDecision (c : Carrier) {s : State} (h : ListsFit s) : ListsFit (slotDecision c s) := by
  have htraffic (sl : SlotRef) (b : Option Batch) (u : State) : SameLists u (trafficSteps c sl b u).2 := by simp [SameLists]
  have hgate (sl : SlotRef) (b : Option Batch) (k : OutcomeCode) (w : EndReason) (u : State) :
      SameLists u (gateHolds c sl b k w u) := by simp [SameLists]
  have hmarker (sl : SlotRef) {u : State} (hu : ListsFit u) : ListsFit (markerStep c sl u).2 := by
    have hm : ListsFit (marksOnAir c sl u) := SameLists.fit (by simp [SameLists]) hu
    have hpop : ListsFit ((marksOnAir c sl u).modCar c fun k => { k with marker := k.marker.tail }) :=
      listsFit_marker hm c (by simpa using Nat.le_succ_of_le (hm.2.2.1 c))
    unfold markerStep
    dsimp only
    split
    · exact hpop
    · exact SameLists.fit (by simp [SameLists]) hpop
  have hsteps (sl : SlotRef) (b : Option Batch) {u : State} (hu : ListsFit u) : ListsFit (decisionSteps c sl b u).2 := by
    unfold decisionSteps
    split_ifs
    · exact (hgate _ _ _ _ _).fit hu
    · exact (hgate _ _ _ _ _).fit hu
    · exact hmarker sl hu
    · exact (htraffic _ _ _).fit hu
  have hprogram (sl : SlotRef) (p : Program) (u : State) : SameLists u (takeProgram c sl p (setProgram c sl p u)) := by
    simp [SameLists]
  unfold slotDecision
  split
  · exact (hprogram _ _ _).fit (hsteps _ _ (SameLists.fit (by simp [SameLists]) h))
  · exact h

theorem listsFit_ownerRestart (body : List Byte) {s : State} (h : ListsFit s) : ListsFit (ownerRestart body s).state := by
  unfold ownerRestart
  split
  · exact h
  · obtain ⟨h1, h2, -, h4, h5, h6⟩ := h
    refine ⟨?_, ?_, fun c => ?_, ?_, ?_, ?_⟩
    · simpa [restartPart] using h1
    · simpa [restartPart] using h2
    · simp [restartPart, restartCarrier]
    · simpa [restartPart] using h4
    · simpa [restartPart] using h5
    · simpa [restartPart, restartProbe] using h6

theorem listsFit_setSample (i : Nat) (x : Sample) {s : State} (h : ListsFit s) : ListsFit (setSample i x s) := by
  obtain ⟨h1, h2, h3, h4, h5, h6⟩ := h
  exact ⟨h1, h2, h3, h4, h5, by simpa [setSample] using h6⟩

theorem listsFit_modSenseChange (c : Carrier) {s : State} (h : ListsFit s) : ListsFit (modSenseChange c s) := by
  have hpin : ListsFit (s.modCar c fun k => { k with modPin := !k.modPin }) := (sameLists_modCar c (by simp) s).fit h
  unfold modSenseChange takeSample
  dsimp only
  split
  · split
    · split
      · exact listsFit_setSample _ _ hpin
      · exact hpin
    · exact hpin
  · exact hpin

theorem listsFit_edgeWindowClose {s : State} (h : ListsFit s) : ListsFit (edgeWindowClose s) := by
  unfold edgeWindowClose
  split
  · split
    · exact listsFit_setSample _ _ h
    · exact h
  · exact h

theorem listsFit_ownerProbeStart (body : List Byte) {s : State} (h : ListsFit s) : ListsFit (ownerProbeStart body s).state := by
  have hclear : ListsFit (clearResult s) := h
  have hstart (c : Carrier) (m : ProbeMode) (a : Bool) : ListsFit (startProbe c m a (clearResult s)) := by
    obtain ⟨h1, h2, h3, h4, h5, -⟩ := hclear
    refine ⟨?_, ?_, fun d => ?_, ?_, ?_, ?_⟩
    · simpa using h1
    · simpa using h2
    · simpa using h3 d
    · simpa using h4
    · simpa using h5
    · cases m <;> rfl
  unfold ownerProbeStart
  dsimp only
  split
  · split
    · exact hclear
    · exact hstart _ _ _
  · exact hclear

theorem listsFit_downFrameRelay (f : Frame) {s : State} (h : ListsFit s) : ListsFit (downFrameRelay f s) := by
  obtain ⟨h1, h2, hrest⟩ := h
  have hhunt : ListsFit (s.setLink { s.link with rxDown := .hunt }) := ⟨h1, h2, hrest⟩
  unfold downFrameRelay offerRelay
  dsimp only
  split
  · split
    · next hroom =>
      refine ⟨?_, ?_, hrest⟩
      · simpa using h1
      · simpa [Config.queueDepth] using hroom
    · exact SameLists.fit (by simp [SameLists]) hhunt
  · exact SameLists.fit (by simp [SameLists]) hhunt

theorem listsFit_upTxStart {s : State} (h : ListsFit s) : ListsFit (upTxStart s) := by
  obtain ⟨h1, h2, hrest⟩ := h
  unfold upTxStart
  split
  · next q _ _ =>
    split
    · refine ⟨?_, ?_, hrest⟩
      all_goals
        cases q <;> simp [dropHead] <;> omega
    · exact ⟨h1, h2, hrest⟩
  · exact ⟨h1, h2, hrest⟩

theorem listsFit_upTxEnd {s : State} (h : ListsFit s) : ListsFit (upTxEnd s) := by
  obtain ⟨h1, h2, hrest⟩ := h
  unfold upTxEnd
  split
  · exact ⟨by simpa using h1, by simpa using h2, hrest⟩
  · exact ⟨h1, h2, hrest⟩

theorem listsFit_resetPart (straps : BitVec 12) (cause : ResetCause) (s : State) : ListsFit (resetPart straps cause s) := by
  refine ⟨Nat.zero_le _, Nat.zero_le _, fun c => ?_, Nat.zero_le _, Nat.zero_le _, rfl⟩
  rw [show (resetPart straps cause s).car c = CarrierState.reset (s.car c).monitor.rfPin (s.car c).modPin from Quad.get_map _ _ _]
  exact Nat.zero_le _

/-! ### The commands that leave those lists -/

section
variable (s : State)

theorem sameLists_ownerHeader (body : List Byte) : SameLists s (ownerHeader body s) := by
  have hplaced (id : BatchId) (c : Carrier) (n : CycleNo) (i : Fin 32) (u : State) :
      SameLists u (wakeTrigger c (u.modCar c fun k => { k with maps := placeClaim id n i k.maps })) := by
    have hmaps := sameLists_modCar c (f := fun k => { k with maps := placeClaim id n i k.maps }) (fun _ => rfl) u
    exact hmaps.trans (by simp [SameLists])
  have hreplaced (b : Batch) (c : Carrier) (n : CycleNo) (i : Fin 32) :
      SameLists s (addBatch b (bringMaps c (replaceClaimant c n i s))) := by
    unfold replaceClaimant
    split <;> simp [SameLists]
  unfold ownerHeader
  dsimp only
  split
  · exact .refl s
  · split
    · simp [SameLists]
    · exact (hreplaced _ _ _ _).trans (hplaced _ _ _ _ _)

theorem sameLists_ownerBlock (body : List Byte) : SameLists s (ownerBlock body s) := by
  unfold ownerBlock
  dsimp only
  repeat' split
  all_goals simp [SameLists]

theorem sameLists_ownerCancel (body : List Byte) : SameLists s (ownerCancel body s) := by
  unfold ownerCancel
  dsimp only
  repeat' split
  all_goals simp [SameLists]

theorem sameLists_ownerLoadSite (body : List Byte) : SameLists s (ownerLoadSite body s).state := by
  unfold ownerLoadSite
  split
  · exact .refl s
  · simp [SameLists, loadSite, evalStoreLow, loadDelays]

theorem sameLists_ownerEnableService (body : List Byte) : SameLists s (ownerEnableService body s).state := by
  unfold ownerEnableService
  split <;> exact .refl s

theorem sameLists_ownerLoadAlign (body : List Byte) : SameLists s (ownerLoadAlign body s).state := by
  unfold ownerLoadAlign
  dsimp only
  repeat' split
  all_goals exact .refl s

theorem sameLists_ownerCommitAlign (body : List Byte) : SameLists s (ownerCommitAlign body s).state := by
  unfold ownerCommitAlign
  dsimp only
  split <;> exact .refl s

theorem sameLists_ownerReadAlign (body : List Byte) : SameLists s (ownerReadAlign body s).state := by
  unfold ownerReadAlign
  dsimp only
  repeat' split
  all_goals exact .refl s

theorem sameLists_ownerEpochSet (body : List Byte) : SameLists s (ownerEpochSet body s).state := by
  unfold ownerEpochSet
  split <;> exact .refl s

theorem sameLists_ownerSchedule (body : List Byte) : SameLists s (ownerSchedule body s).state := by
  unfold ownerSchedule
  split <;> exact .refl s

theorem sameLists_ownerStandby (body : List Byte) : SameLists s (ownerStandby body s).state := by
  unfold ownerStandby
  split
  · exact .refl s
  · split
    · exact sameLists_modCar _ (by simp) s
    · exact .refl s

theorem sameLists_ownerGuardTest (body : List Byte) : SameLists s (ownerGuardTest body s).state := by
  unfold ownerGuardTest
  split
  · exact .refl s
  · exact sameLists_modCar _ (by simp) s

theorem sameLists_ownerProbeAbort (body : List Byte) : SameLists s (ownerProbeAbort body s).state := by
  unfold ownerProbeAbort
  split
  · simp [SameLists]
  · exact .refl s

theorem sameLists_ownerProbeResult (body : List Byte) : SameLists s (ownerProbeResult body s).state := by
  unfold ownerProbeResult
  dsimp only
  split <;> exact .refl s

theorem sameLists_ownerCounters (body : List Byte) : SameLists s (ownerCounters body s).state := by
  simp [SameLists, ownerCounters]

theorem sameLists_ownerClearAlarms (body : List Byte) : SameLists s (ownerClearAlarms body s).state := by
  simp [SameLists, ownerClearAlarms]

theorem sameLists_tableRoll : SameLists s (tableRoll s) := by
  unfold tableRoll
  dsimp only
  repeat' split
  all_goals simp [SameLists]

theorem sameLists_currentCycleAdvance (c : Carrier) : SameLists s (currentCycleAdvance c s) := by
  unfold currentCycleAdvance
  repeat' split
  all_goals simp [SameLists]

theorem sameLists_symbolEmit (c : Carrier) : SameLists s (symbolEmit c s) := by
  unfold symbolEmit
  repeat' split
  all_goals simp [SameLists]

theorem sameLists_payloadEnd (c : Carrier) : SameLists s (payloadEnd c s) := by
  have hcentre (r : Run) (k : CarrierState) : (centreAfter r k).marker = k.marker := by
    unfold centreAfter
    split <;> rfl
  unfold payloadEnd
  split
  · next r _ =>
    split
    · have hc := sameLists_modCar c (hcentre r) (modTimer c (fun t => { t with finishing := none }) s)
      refine SameLists.trans (t := modTimer c (fun t => { t with finishing := none }) s) ?_ (hc.trans ?_)
      all_goals simp [SameLists]
    · exact .refl s
  · exact .refl s

theorem sameLists_tailExpiry (c : Carrier) : SameLists s (tailExpiry c s) := by
  unfold tailExpiry
  split <;> simp [SameLists]

theorem sameLists_wakeExpiry (c : Carrier) : SameLists s (wakeExpiry c s) := by
  unfold wakeExpiry
  split
  · exact sameLists_modCar c (by simp) s
  · exact .refl s

theorem sameLists_rfSenseChange (c : Carrier) (p : Bool) : SameLists s (rfSenseChange c p s) := by
  have hseen (u : State) : SameLists u (seeRf c p u) := by
    unfold seeRf
    split_ifs <;> simp [SameLists]
  have hchecked (u : State) : SameLists u (recheck c p u) := by simp [SameLists]
  have hpin := sameLists_modCar c (f := fun k => { k with monitor := { k.monitor with rfPin := p } }) (fun _ => rfl) s
  unfold rfSenseChange
  dsimp only
  split_ifs
  · exact hpin
  · exact ((hpin.trans (sameLists_modCar c (f := sampleChange s.now p) (fun _ => rfl) _)).trans (hseen _)).trans (hchecked _)

theorem sameLists_stuckCarrier (c : Carrier) : SameLists s (stuckCarrier c s) := by
  unfold stuckCarrier
  split
  · split
    · have hrun := sameLists_modCar c (f := fun k => { k with monitor := { k.monitor with presence := some s.now } }) (fun _ => rfl) s
      exact hrun.trans (by simp [SameLists])
    · exact .refl s
  · exact .refl s

theorem sameLists_beginProbes : SameLists s (beginProbes s) := by simp [SameLists, beginProbes]

theorem sameLists_loadSettleEnd : SameLists s (loadSettleEnd s) := by
  unfold loadSettleEnd
  split
  · dsimp only
    have hkey (p : Probe) (hp : p.samples = s.probe.samples) : SameLists s (driveProbe (-3) ((s.setProbe p).modCar s.probe.carrier
        fun k => { k with key := .probe, monitor := { k.monitor with presence := none } })) := by
      have hm := sameLists_modCar s.probe.carrier
        (f := fun k => { k with key := .probe, monitor := { k.monitor with presence := none } }) (fun _ => rfl) (s.setProbe p)
      refine SameLists.trans (t := s.setProbe p) ⟨rfl, rfl, fun _ => rfl, rfl, rfl, hp⟩ (hm.trans ?_)
      simp [SameLists]
    split
    · refine SameLists.trans ?_ (sameLists_beginProbes _)
      exact hkey _ rfl
    · exact hkey _ rfl
  · exact .refl s

theorem sameLists_keyUpEnd : SameLists s (keyUpEnd s) := by
  unfold keyUpEnd
  split
  · exact sameLists_beginProbes s
  · exact .refl s

theorem sameLists_probeEmission : SameLists s (probeEmission s) := by
  unfold probeEmission
  repeat' split
  all_goals simp [SameLists]

theorem sameLists_probePhaseEnd : SameLists s (probePhaseEnd s) := by
  unfold probePhaseEnd
  split <;> simp [SameLists]

theorem sameLists_keyDownEnd : SameLists s (keyDownEnd s) := by
  unfold keyDownEnd
  split <;> exact .refl s

theorem sameLists_endProbe (r : ProbeRecord) : SameLists s (endProbe r s) := by
  unfold endProbe
  dsimp only
  split <;> exact .refl s

theorem sameLists_loadReturnEnd : SameLists s (loadReturnEnd s) := by
  have hload := sameLists_modCar s.probe.carrier (f := fun k => { k with load := false }) (fun _ => rfl) s
  unfold loadReturnEnd
  split
  · dsimp only
    split_ifs
    · exact hload.trans (sameLists_endProbe _ _)
    · exact hload.trans (sameLists_endProbe _ _)
    · refine (hload.trans ?_).trans (sameLists_endProbe _ _)
      simp [SameLists]
  · exact .refl s

theorem sameLists_observeEnd : SameLists s (observeEnd s) := by
  unfold observeEnd
  split
  · exact sameLists_endProbe s _
  · exact .refl s

theorem sameLists_syncWordMatch (p : Port) (w : BitVec 16) : SameLists s (syncWordMatch p w s) := by
  unfold syncWordMatch
  repeat' split
  all_goals exact .refl s

theorem sameLists_repeats : SameLists s (repeatTxStart s) ∧ SameLists s (repeatTxEnd s) := by
  unfold repeatTxStart repeatTxEnd
  refine ⟨?_, ?_⟩
  all_goals split <;> exact .refl s

end

/-- Every command keeps those lists in their bounds. -/
theorem listsFit_exec {i : Instr} {s t : State} (h : ListsFit s) (he : exec i s = .next t) : ListsFit t := by
  have hF := listsFit_frameSafe
  have request {owner : List Byte → State → Answer} (ho : ∀ s body, SameLists s (owner body s).state) (kind : Byte) (len : Nat)
      (f : RxFrame) : ListsFit (receiveUp kind (takeRequest len owner) f s) :=
    hF.request kind len (fun body s h => (ho s body).fit h) f h
  have traffic {owner : List Byte → State → State} (ho : ∀ s body, SameLists s (owner body s)) (kind : Byte) (k : TrafficKind)
      (len : Nat) (f : RxFrame) : ListsFit (receiveUp kind (takeTraffic k len owner) f s) :=
    hF.traffic kind k len (fun body s h => (ho s body).fit h) f h
  cases i <;> (injection he with he; subst he)
  case powerOn straps => exact listsFit_resetPart straps .powerOn s
  case resetPin straps => exact listsFit_resetPart straps .resetPin s
  case timeMark f => exact hF.traffic _ _ _ (fun body _ => listsFit_ownerTimeMark body) f h
  case batchHeader f => exact traffic sameLists_ownerHeader _ _ _ f
  case batchBlock f => exact traffic sameLists_ownerBlock _ _ _ f
  case cancel f => exact traffic sameLists_ownerCancel _ _ _ f
  case unknownRequest k f =>
    show ListsFit (unknownRequest k f s)
    unfold unknownRequest
    split
    · exact request (fun s _ => .refl s) _ _ f
    · exact h
  case loadSite f => exact request sameLists_ownerLoadSite _ _ f
  case enableService f => exact request sameLists_ownerEnableService _ _ f
  case restart f => exact hF.request _ _ (fun body _ => listsFit_ownerRestart body) f h
  case status f => exact request (fun s _ => .refl s) _ _ f
  case counters f => exact request sameLists_ownerCounters _ _ f
  case clearAlarms f => exact request sameLists_ownerClearAlarms _ _ f
  case loadAlign f => exact request sameLists_ownerLoadAlign _ _ f
  case commitAlign f => exact request sameLists_ownerCommitAlign _ _ f
  case readAlign f => exact request sameLists_ownerReadAlign _ _ f
  case epochSet f => exact request sameLists_ownerEpochSet _ _ f
  case schedule f => exact request sameLists_ownerSchedule _ _ f
  case standby f => exact request sameLists_ownerStandby _ _ f
  case markerLoad f => exact hF.request _ _ (fun body _ => listsFit_ownerMarkerLoad body) f h
  case markerClear f => exact hF.request _ _ (fun body _ => listsFit_ownerMarkerClear body) f h
  case probeStart f => exact hF.request _ _ (fun body _ => listsFit_ownerProbeStart body) f h
  case probeAbort f => exact request sameLists_ownerProbeAbort _ _ f
  case probeResult f => exact request sameLists_ownerProbeResult _ _ f
  case guardTest f => exact request sameLists_ownerGuardTest _ _ f
  case clockLost => exact listsFit_clockLost h
  case clockReturn => exact listsFit_clockReturn h
  case referenceClockEdge => exact listsFit_clockEdge h
  case epochPulse => exact listsFit_epochPulse h
  case holdoverEpochStart => exact listsFit_holdoverStart h
  case tableRoll => exact (sameLists_tableRoll s).fit h
  case slotDecision c => exact listsFit_slotDecision c h
  case currentCycleAdvance c => exact (sameLists_currentCycleAdvance s c).fit h
  case slotEnd c => exact SameLists.fit (by simp [SameLists, slotEnd]) h
  case keyUp c => exact SameLists.fit (by simp [SameLists]) h
  case symbolEmit c => exact (sameLists_symbolEmit s c).fit h
  case payloadEnd c => exact (sameLists_payloadEnd s c).fit h
  case tailExpiry c => exact (sameLists_tailExpiry s c).fit h
  case wakeExpiry c => exact (sameLists_wakeExpiry s c).fit h
  case rfSenseChange c p => exact (sameLists_rfSenseChange s c p).fit h
  case stuckCarrier c => exact (sameLists_stuckCarrier s c).fit h
  case modSenseChange c => exact listsFit_modSenseChange c h
  case loadSettleEnd => exact (sameLists_loadSettleEnd s).fit h
  case keyUpEnd => exact (sameLists_keyUpEnd s).fit h
  case probeEmission => exact (sameLists_probeEmission s).fit h
  case edgeWindowClose => exact listsFit_edgeWindowClose h
  case probePhaseEnd => exact (sameLists_probePhaseEnd s).fit h
  case keyDownEnd => exact (sameLists_keyDownEnd s).fit h
  case loadReturnEnd => exact (sameLists_loadReturnEnd s).fit h
  case observeEnd => exact (sameLists_observeEnd s).fit h
  case downFrameRelay f => exact listsFit_downFrameRelay f h
  case syncWordMatch p w => exact (sameLists_syncWordMatch s p w).fit h
  case repeatTxStart => exact (sameLists_repeats s).1.fit h
  case repeatTxEnd => exact (sameLists_repeats s).2.fit h
  case upTxStart => exact listsFit_upTxStart h
  case upTxEnd => exact listsFit_upTxEnd h

/-! ### The Batch Table (R58) -/

theorem endBatch_length_le (id : BatchId) (why : EndReason) (s : State) :
    (endBatch id why s).batches.length ≤ s.batches.length := by
  cases hf : findBatch id s with
  | none => rw [endBatch_none hf]
  | some b =>
    rw [(endBatch_some hf why).1]
    exact List.length_filter_le _ _

/-- A bound on the number of records stands the operations on the table. -/
theorem tableLength_tableSafe (n : Nat) : TableSafe fun s => s.batches.length ≤ n where
  congr hb _ h := hb ▸ h
  changes h _ _ _ := by simpa [modBatch] using h
  ends h _ _ := Nat.le_trans (endBatch_length_le _ _ _) h
  spends h _ _ := by simpa using h
  storeLow h := h

theorem tableLength_frameSafe (n : Nat) : FrameSafe fun s => s.batches.length ≤ n where
  heard _ _ _ h := h
  counted _ _ h := h
  offered _ _ h := by simpa using h

theorem insertRecord_length (b : Batch) (l : List Batch) : (insertRecord b l).length = l.length + 1 := by
  induction l with
  | nil => rfl
  | cons x xs ih =>
    unfold insertRecord
    split
    · rfl
    · simp [ih]

theorem tableLength_ownerHeader (body : List Byte) {s : State} (h : s.batches.length ≤ 64) :
    (ownerHeader body s).batches.length ≤ 64 := by
  unfold ownerHeader
  dsimp only
  split
  · exact h
  split
  · simpa using h
  · next c _ _ hd n hv =>
    obtain ⟨-, hroom, -⟩ := judgeHeader_accepted hv
    have hT := tableLength_tableSafe 63
    have hless := hT.bringMaps c (hT.replaceClaimant c n hd.start (Nat.le_of_lt_succ hroom))
    have hlength := insertRecord_length (newBatch (headerFrame body).id c hd n)
      (bringMaps c (replaceClaimant c n hd.start s)).batches
    simp only [acceptHeader, wakeTrigger_keeps, State.modCar_batches, addBatch, State.setBatches_batches, hlength]
    omega

theorem tableLength_exec {i : Instr} {s t : State} (h : s.batches.length ≤ 64) (he : exec i s = .next t) :
    t.batches.length ≤ 64 := by
  by_cases hi : movesBatches i = false
  · rw [(exec_samePlaces hi he).1]
    exact h
  have hF := tableLength_frameSafe 64
  have hT := tableLength_tableSafe 64
  cases i <;> first | exact absurd rfl hi | (injection he with he; subst he)
  case powerOn straps => exact Nat.zero_le _
  case resetPin straps => exact Nat.zero_le _
  case clockLost => exact hT.clockLost h
  case epochPulse => exact hT.epochPulse h
  case holdoverEpochStart => exact hT.holdoverStart h
  case batchHeader f => exact hF.traffic _ _ _ (fun body _ => tableLength_ownerHeader body) f h
  case batchBlock f =>
    refine hF.traffic _ _ _ (fun body s h => ?_) f h
    unfold ownerBlock
    dsimp only
    repeat' split
    all_goals simpa [modBatch] using h
  case cancel f => exact hF.traffic _ _ _ (fun body _ => hT.ownerCancel body) f h
  case restart f => exact hF.request _ _ (fun body _ => hT.ownerRestart body) f h
  case currentCycleAdvance c => exact hT.currentCycleAdvance c h
  case slotDecision c => exact hT.slotDecision c h
  case symbolEmit c => exact hT.symbolEmit c h
  case payloadEnd c => exact hT.payloadEnd c h

/-! ### All of them -/

theorem words_frameSafe : FrameSafe WordsInRange where
  heard _ _ _ h := h
  counted _ _ h := h
  offered _ _ h := words_of_eq (by simp) h

theorem words_exec {i : Instr} {s t : State} (h : WordsInRange s) (he : exec i s = .next t) : WordsInRange t := by
  by_cases hi : movesProbe i = false
  · exact (exec_sameProbe hi he).2.words h
  have hF := words_frameSafe
  have hreset (straps : BitVec 12) (cause : ResetCause) : WordsInRange (resetPart straps cause s) := by
    intro c
    rw [show (resetPart straps cause s).car c = CarrierState.reset (s.car c).monitor.rfPin (s.car c).modPin from Quad.get_map _ _ _]
    exact wordFits_wordOf { gain := 0, centre := 0 } 0
  cases i <;> first | exact absurd rfl hi | (injection he with he; subst he)
  case powerOn straps => exact hreset straps .powerOn
  case resetPin straps => exact hreset straps .resetPin
  case clockLost => exact (keysAndWords_clockLost s).words h
  case holdoverEpochStart => exact (keysAndWords_holdoverStart s).words h
  case restart f => exact hF.request _ _ (fun body s h => (keysAndWords_ownerRestart body s).words h) f h
  case probeStart f =>
    refine hF.request _ _ (fun body s h => words_of_eq (s := s) ?_ h) f h
    unfold ownerProbeStart clearResult
    dsimp only
    repeat' split
    all_goals simp [Answer.refuse]
  case probeAbort f =>
    refine hF.request _ _ (fun body s h => ?_) f h
    unfold ownerProbeAbort
    split
    · exact (keysAndWords_abortProbe s).words h
    · exact h
  case probeResult f =>
    refine hF.request _ _ (fun body s h => words_of_eq (s := s) ?_ h) f h
    unfold ownerProbeResult clearResult
    dsimp only
    split <;> simp
  case rfSenseChange c p =>
    have hpin : WordsInRange (s.modCar c fun k => { k with monitor := { k.monitor with rfPin := p } }) :=
      (keysAndWords_modCar c (.refl _)).words h
    show WordsInRange (rfSenseChange c p s)
    unfold rfSenseChange
    dsimp only
    split_ifs
    · exact hpin
    · refine words_of_eq ?_ ((keysAndWords_modCar (f := sampleChange s.now p) c (.refl _)).words hpin)
      simp
  case modSenseChange c =>
    have hpin : WordsInRange (s.modCar c fun k => { k with modPin := !k.modPin }) := (keysAndWords_modCar c (.refl _)).words h
    show WordsInRange (modSenseChange c s)
    unfold modSenseChange takeSample
    dsimp only
    repeat' split
    all_goals exact hpin
  case loadSettleEnd => exact words_loadSettleEnd h
  case keyUpEnd =>
    show WordsInRange (keyUpEnd s)
    unfold keyUpEnd
    split
    · exact words_beginProbes h
    · exact h
  case probeEmission =>
    show WordsInRange (probeEmission s)
    unfold probeEmission
    split
    · split
      · exact (keysAndWords_driveProbe _ (s.setProbe { s.probe with emitted := s.probe.emitted + 1 })).words h
      · exact h
    · exact h
  case edgeWindowClose =>
    refine words_of_eq (s := s) ?_ h
    unfold edgeWindowClose
    repeat' split
    all_goals simp
  case probePhaseEnd =>
    show WordsInRange (probePhaseEnd s)
    unfold probePhaseEnd
    split
    · exact (keysAndWords_returnKey s).words h
    · exact h
  case keyDownEnd =>
    refine words_of_eq (s := s) ?_ h
    unfold keyDownEnd
    split <;> simp
  case loadReturnEnd =>
    have hload : WordsInRange (s.modCar s.probe.carrier fun k => { k with load := false }) :=
      (keysAndWords_modCar _ (.refl _)).words h
    show WordsInRange (loadReturnEnd s)
    unfold loadReturnEnd
    dsimp only
    split_ifs
    · exact words_of_eq (by simp) hload
    · exact words_of_eq (by simp) hload
    · exact words_of_eq (by simp) hload
    · exact h
  case observeEnd =>
    refine words_of_eq (s := s) ?_ h
    unfold observeEnd
    split <;> simp

/-- Settles O4: the words by the keys that are dropped, opened and driven, the Batch Table by the operations on it, the other
lists command by command. -/
theorem stepKeepsWordsAndLists : Obligations.StepKeepsWordsAndLists := by
  unfold Obligations.StepKeepsWordsAndLists
  intro s t hw hl hs
  obtain ⟨hown, hrelay, hbatches, hrest⟩ := hl
  have hkept := step_keeps (P := fun s => WordsInRange s ∧ s.batches.length ≤ 64 ∧ ListsFit s) (fun _ _ h => h)
    (fun _ _ _ ⟨h1, h2, h3⟩ he => ⟨words_exec h1 he, tableLength_exec h2 he, listsFit_exec h3 he⟩)
    ⟨hw, hbatches, hown, hrelay, hrest⟩ hs
  obtain ⟨hw', hbatches', hown', hrelay', hrest'⟩ := hkept
  exact ⟨hw', hown', hrelay', hbatches', hrest'⟩

/-! ### Reset (O9) -/

/-- Settles O9: the state after reset is the one a power-on leaves. -/
theorem resetMeetsInvariants : Obligations.ResetMeetsInvariants := by
  unfold Obligations.ResetMeetsInvariants
  have hreset : State.reset = resetPart Config.resetStraps .powerOn State.reset := rfl
  have hlists : ListsFit State.reset := hreset ▸ listsFit_resetPart _ _ _
  obtain ⟨hown, hrelay, hrest⟩ := hlists
  have hrange : InRange State.reset := hreset ▸ inRange_resetPart _ _ _
  obtain ⟨htables, hparams, hdelays⟩ := hrange
  have hprobe : ProbeSafe State.reset := hreset ▸ probeSafe_resetPart _ _ _
  have hblocks : BlocksAccounted State.reset := hreset ▸ blocksAccounted_resetPart _ _ _
  have hscheduled : Scheduled State.reset := hreset ▸ scheduled_resetPart _ _ _
  refine ⟨fun c => ?_, ⟨hown, hrelay, Nat.zero_le _, hrest⟩, htables, hparams, hdelays, hprobe.1, hprobe.2, hblocks, hscheduled⟩
  rw [State.reset_car]
  exact ⟨by decide, by decide⟩

end Sys2Proof.Machine
end

section
/-! The queue: a step runs its front command, and no command stops the part or moves the queue. -/

namespace Sys2Proof.Machine

open Sys2Proof.Safety

/-- Settles O1, by the definition of a step. -/
theorem stepRunsFrontCommand : Obligations.StepRunsFrontCommand := by
  unfold Obligations.StepRunsFrontCommand
  exact ⟨fun _ _ _ => rfl, fun _ => rfl⟩

/-! ### What the commands do to the queue -/

theorem frameSafe_pending (q : List Instr) : FrameSafe fun s => s.pending = q where
  heard _ _ _ h := h
  counted _ _ h := h
  offered f s h := by simpa using h

section
variable (body : List Byte) (s : State)

theorem ownerTimeMark_pending : (ownerTimeMark body s).pending = s.pending := by
  unfold ownerTimeMark takeMark
  repeat' split
  all_goals simp

theorem acceptHeader_pending (id : BatchId) (c : Carrier) (h : HeaderFields) (n : CycleNo) :
    (acceptHeader id c h n s).pending = s.pending := by
  have hr : (replaceClaimant c n h.start s).pending = s.pending := by
    unfold replaceClaimant
    split <;> simp
  simpa [acceptHeader] using hr

theorem ownerHeader_pending : (ownerHeader body s).pending = s.pending := by
  unfold ownerHeader
  dsimp only
  split
  · simp
  · split
    · simp
    · exact acceptHeader_pending _ _ _ _ _

theorem ownerBlock_pending : (ownerBlock body s).pending = s.pending := by
  unfold ownerBlock
  dsimp only
  repeat' split
  all_goals simp

theorem ownerCancel_pending : (ownerCancel body s).pending = s.pending := by
  unfold ownerCancel
  dsimp only
  repeat' split
  all_goals simp

theorem ownerLoadSite_pending : (ownerLoadSite body s).state.pending = s.pending := by
  unfold ownerLoadSite
  split
  · rfl
  · simp [loadSite]

theorem ownerEnableService_pending : (ownerEnableService body s).state.pending = s.pending := by
  unfold ownerEnableService
  split <;> rfl

theorem ownerRestart_pending : (ownerRestart body s).state.pending = s.pending := by
  unfold ownerRestart
  split
  · rfl
  · simp [restartPart]

theorem ownerLoadAlign_pending : (ownerLoadAlign body s).state.pending = s.pending := by
  unfold ownerLoadAlign
  dsimp only
  repeat' split
  all_goals rfl

theorem ownerCommitAlign_pending : (ownerCommitAlign body s).state.pending = s.pending := by
  unfold ownerCommitAlign
  dsimp only
  split <;> rfl

theorem ownerReadAlign_state : (ownerReadAlign body s).state = s := by
  unfold ownerReadAlign
  dsimp only
  repeat' split
  all_goals rfl

theorem ownerEpochSet_pending : (ownerEpochSet body s).state.pending = s.pending := by
  unfold ownerEpochSet
  split <;> rfl

theorem ownerSchedule_state : (ownerSchedule body s).state = s := by
  unfold ownerSchedule
  split <;> rfl

theorem ownerStandby_pending : (ownerStandby body s).state.pending = s.pending := by
  unfold ownerStandby
  repeat' split
  all_goals rfl

theorem ownerMarkerLoad_pending : (ownerMarkerLoad body s).state.pending = s.pending := by
  unfold ownerMarkerLoad
  dsimp only
  repeat' split
  all_goals simp [Answer.refuse]

theorem ownerMarkerClear_pending : (ownerMarkerClear body s).state.pending = s.pending := by
  unfold ownerMarkerClear
  split <;> rfl

theorem ownerProbeStart_pending : (ownerProbeStart body s).state.pending = s.pending := by
  unfold ownerProbeStart
  dsimp only
  repeat' split
  all_goals simp [Answer.refuse]

theorem ownerProbeAbort_pending : (ownerProbeAbort body s).state.pending = s.pending := by
  unfold ownerProbeAbort
  split <;> simp [Answer.refuse]

theorem ownerProbeResult_pending : (ownerProbeResult body s).state.pending = s.pending := by
  unfold ownerProbeResult
  dsimp only
  split <;> simp

theorem ownerGuardTest_pending : (ownerGuardTest body s).state.pending = s.pending := by
  unfold ownerGuardTest
  split <;> rfl

theorem ownerCounters_pending : (ownerCounters body s).state.pending = s.pending := by simp [ownerCounters]

theorem ownerClearAlarms_pending : (ownerClearAlarms body s).state.pending = s.pending := by simp [ownerClearAlarms]

end

/-- Every command keeps the queue. -/
theorem exec_pending {i : Instr} {s t : State} (he : exec i s = .next t) : t.pending = s.pending := by
  have traffic {owner : List Byte → State → State} (ho : ∀ body s, (owner body s).pending = s.pending) (kind : Byte)
      (k : TrafficKind) (len : Nat) (f : RxFrame) : (receiveUp kind (takeTraffic k len owner) f s).pending = s.pending :=
    (frameSafe_pending s.pending).traffic kind k len (fun body _ h => (ho body _).trans h) f rfl
  have request {owner : List Byte → State → Answer} (ho : ∀ body s, (owner body s).state.pending = s.pending) (kind : Byte)
      (len : Nat) (f : RxFrame) : (receiveUp kind (takeRequest len owner) f s).pending = s.pending :=
    (frameSafe_pending s.pending).request kind len (fun body _ h => (ho body _).trans h) f rfl
  cases i <;> (injection he with he; subst he)
  case powerOn => rfl
  case resetPin => rfl
  case timeMark f => exact traffic ownerTimeMark_pending _ _ _ f
  case batchHeader f => exact traffic ownerHeader_pending _ _ _ f
  case batchBlock f => exact traffic ownerBlock_pending _ _ _ f
  case cancel f => exact traffic ownerCancel_pending _ _ _ f
  case loadSite f => exact request ownerLoadSite_pending _ _ f
  case enableService f => exact request ownerEnableService_pending _ _ f
  case restart f => exact request ownerRestart_pending _ _ f
  case status f => exact request (fun _ _ => rfl) _ _ f
  case counters f => exact request ownerCounters_pending _ _ f
  case clearAlarms f => exact request ownerClearAlarms_pending _ _ f
  case loadAlign f => exact request ownerLoadAlign_pending _ _ f
  case commitAlign f => exact request ownerCommitAlign_pending _ _ f
  case readAlign f => exact request (fun body s => congrArg State.pending (ownerReadAlign_state body s)) _ _ f
  case epochSet f => exact request ownerEpochSet_pending _ _ f
  case schedule f => exact request (fun body s => congrArg State.pending (ownerSchedule_state body s)) _ _ f
  case standby f => exact request ownerStandby_pending _ _ f
  case markerLoad f => exact request ownerMarkerLoad_pending _ _ f
  case markerClear f => exact request ownerMarkerClear_pending _ _ f
  case probeStart f => exact request ownerProbeStart_pending _ _ f
  case probeAbort f => exact request ownerProbeAbort_pending _ _ f
  case probeResult f => exact request ownerProbeResult_pending _ _ f
  case guardTest f => exact request ownerGuardTest_pending _ _ f
  case unknownRequest k f =>
    show (unknownRequest k f s).pending = s.pending
    unfold unknownRequest
    split
    · exact request (fun _ _ => rfl) _ _ f
    · rfl
  case clockLost => show (clockLost s).pending = _; unfold clockLost; split <;> simp
  case clockReturn => show (clockReturn s).pending = _; unfold clockReturn; split <;> simp
  case referenceClockEdge =>
    show (clockEdge s).pending = _
    unfold clockEdge clockReturn
    dsimp only
    repeat' split
    all_goals simp
  case epochPulse =>
    show (epochPulse s).pending = _
    unfold epochPulse
    repeat' split
    all_goals simp
  case holdoverEpochStart =>
    show (holdoverStart s).pending = _
    unfold holdoverStart expireHoldover
    dsimp only
    repeat' split
    all_goals simp
  case downFrameRelay f =>
    show (downFrameRelay f s).pending = _
    unfold downFrameRelay offerRelay
    dsimp only
    repeat' split
    all_goals simp
  case repeatTxStart => show (repeatTxStart s).pending = _; unfold repeatTxStart; split <;> rfl
  case repeatTxEnd => show (repeatTxEnd s).pending = _; unfold repeatTxEnd; split <;> rfl
  case upTxStart =>
    show (upTxStart s).pending = _
    unfold upTxStart
    repeat' split
    all_goals rfl
  case upTxEnd => show (upTxEnd s).pending = _; unfold upTxEnd; split <;> rfl
  case tableRoll =>
    show (tableRoll s).pending = _
    unfold tableRoll
    dsimp only
    repeat' split
    all_goals simp
  case currentCycleAdvance c =>
    show (currentCycleAdvance c s).pending = _
    unfold currentCycleAdvance
    repeat' split
    all_goals simp
  case slotDecision c => show (slotDecision c s).pending = _; unfold slotDecision; split <;> simp
  case keyUp c => show (keyUp c s).pending = _; simp
  case symbolEmit c =>
    show (symbolEmit c s).pending = _
    unfold symbolEmit
    repeat' split
    all_goals simp
  case payloadEnd c =>
    show (payloadEnd c s).pending = _
    unfold payloadEnd
    repeat' split
    all_goals simp
  case tailExpiry c => show (tailExpiry c s).pending = _; unfold tailExpiry; split <;> simp
  case wakeExpiry c => show (wakeExpiry c s).pending = _; unfold wakeExpiry; split <;> simp
  case slotEnd c => show (slotEnd c s).pending = _; simp [slotEnd]
  case rfSenseChange c present =>
    show (rfSenseChange c present s).pending = _
    unfold rfSenseChange
    dsimp only
    split <;> simp
  case stuckCarrier c =>
    show (stuckCarrier c s).pending = _
    unfold stuckCarrier
    repeat' split
    all_goals simp
  case modSenseChange c =>
    show (modSenseChange c s).pending = _
    unfold modSenseChange takeSample
    dsimp only
    repeat' split
    all_goals simp
  case loadSettleEnd =>
    show (loadSettleEnd s).pending = _
    unfold loadSettleEnd
    dsimp only
    repeat' split
    all_goals simp
  case keyUpEnd => show (keyUpEnd s).pending = _; unfold keyUpEnd; split <;> simp
  case probeEmission =>
    show (probeEmission s).pending = _
    unfold probeEmission
    repeat' split
    all_goals simp
  case edgeWindowClose =>
    show (edgeWindowClose s).pending = _
    unfold edgeWindowClose
    repeat' split
    all_goals simp
  case probePhaseEnd => show (probePhaseEnd s).pending = _; unfold probePhaseEnd; dsimp only; split <;> simp
  case keyDownEnd => show (keyDownEnd s).pending = _; unfold keyDownEnd; split <;> simp
  case loadReturnEnd =>
    show (loadReturnEnd s).pending = _
    unfold loadReturnEnd
    dsimp only
    repeat' split
    all_goals simp
  case observeEnd => show (observeEnd s).pending = _; unfold observeEnd; split <;> simp
  case syncWordMatch p w =>
    show (syncWordMatch p w s).pending = _
    unfold syncWordMatch
    repeat' split
    all_goals rfl

/-- Every command answers a next state. -/
theorem exec_next (c : Instr) (s : State) : ∃ t, exec c s = .next t := by cases c <;> exact ⟨_, rfl⟩

/-- Settles O2, by the arms of `exec`. -/
theorem everyCommandAnswers : Obligations.EveryCommandAnswers := by
  unfold Obligations.EveryCommandAnswers
  intro c s
  obtain ⟨t, ht⟩ := exec_next c s
  exact ⟨t, ht, exec_pending ht⟩

/-! ### Power-on -/

theorem resetPart_car (straps : BitVec 12) (cause : ResetCause) (s : State) (c : Carrier) :
    (resetPart straps cause s).car c = CarrierState.reset (s.car c).monitor.rfPin (s.car c).modPin := Quad.get_map _ _ _

theorem resetPart_par (straps : BitVec 12) (cause : ResetCause) (s : State) (c : Carrier) :
    (resetPart straps cause s).par c = CarrierParams.default := Quad.get_all _ _

theorem resetPart_record (straps : BitVec 12) (cause : ResetCause) (s : State) (c : Carrier) :
    (resetPart straps cause s).align.active.records.get c = CarrierRecord.reset ∧
      (resetPart straps cause s).align.staged.records.get c = CarrierRecord.reset ∧
      (resetPart straps cause s).align.delays.get c = { value := 0, pending := none } :=
  ⟨Quad.get_all _ _, Quad.get_all _ _, Quad.get_all _ _⟩

theorem carrierReset_idle (rf pin : Bool) : Idle (CarrierState.reset rf pin) :=
  ⟨emptyMap_empty, emptyMap_empty, ⟨rfl, rfl, rfl⟩, rfl, rfl, rfl⟩

theorem rows_reset (g : Fin 16) : CarrierRecord.reset.rows.get g = { enabled := false, offset := 0 } := by
  simp [CarrierRecord.reset, Vector.get]

theorem outcomes_reset (i : Fin 32) : OutcomeArray.reset.entries.get i = none := by
  simp [OutcomeArray.reset, Vector.get]

/-- Settles O3, field by field of the state after power-on. -/
theorem powerOnClears : Obligations.PowerOnClears := by
  unfold Obligations.PowerOnClears
  refine ⟨fun straps s => ⟨_, rfl, rfl, rfl, rfl, rfl, rfl, fun _ => rfl, rfl, rfl, fun c => ?_⟩,
    fun straps s => ⟨_, rfl, rfl, rfl, rfl, rfl, rfl, rfl, rfl, rfl, rfl, rfl, rfl, rfl, rfl, rfl, rfl, rfl, rfl, rfl, rfl, rfl,
      rfl, rfl, rfl, rfl, rfl, rfl, rfl, rfl, rfl, rfl, fun c => ?_⟩⟩
  · obtain ⟨ha, hs, hd⟩ := resetPart_record straps .powerOn s c
    rw [ha, hs, hd, resetPart_car]
    exact ⟨rfl, rfl, rfl, rows_reset, rfl, rfl, carrierReset_idle _ _, rfl, rfl, rfl, rfl, rfl, rfl, rfl, outcomes_reset, rfl,
      rfl, rfl, rfl, rfl, rfl, rfl, rfl, rfl⟩
  · exact ⟨resetPart_par _ _ _ _, congrArg CarrierState.counters (resetPart_car straps .powerOn s c)⟩

end Sys2Proof.Machine
end

section
/-! The reference clock and the epoch starts: ticks, pulses, holdover and the numbers taken. -/

namespace Sys2Proof.Machine

open Sys2Proof.Safety

/-! ### Reference edges -/

theorem sampleRf_same (s : State) (c : Carrier) :
    (sampleRf s).car c = { s.car c with monitor := { (s.car c).monitor with
      rfSense := (s.car c).monitor.rfPin
      presence := if (s.car c).monitor.rfPin = true ∧ keyLine (s.car c).key = false then some s.now else none } } := by
  simp only [sampleRf, State.setCarriers_car, Quad.get_map, Bool.and_eq_true, Bool.not_eq_true']
  rfl

theorem clockReturn_lost {s : State} (h : s.tracker.ref = .noClock) :
    clockReturn s = (sampleRf (modTracker (fun t => { t with ref := .acquiring, lastPulse := none, history := [] })
      (advanceTick s))).setFirstEdge false := if_pos h

theorem clockEdge_lost {s : State} (h : s.tracker.ref = .noClock) : clockEdge s = clockReturn s := if_pos h

theorem clockEdge_present {s : State} (h : s.tracker.ref ≠ .noClock) :
    clockEdge s = if s.firstEdge then (sampleRf (advanceTick s)).setFirstEdge false else advanceTick s := if_neg h

/-- Settles O10, by the state of the clock. -/
theorem clockEdges : Obligations.ClockEdges := by
  unfold Obligations.ClockEdges
  refine ⟨fun s h => ⟨fun hf => ?_, fun hf => ?_⟩, fun s h => ?_⟩
  · refine congrArg Host.Outcome.next ((clockEdge_present h).trans ?_)
    rw [hf]
    rfl
  · refine congrArg Host.Outcome.next ((clockEdge_present h).trans ?_)
    simp only [hf, if_true, sampleRf, Bool.and_eq_true, Bool.not_eq_true']
    rfl
  · refine ⟨clockReturn s, rfl, congrArg Host.Outcome.next (clockEdge_lost h), ?_⟩
    rw [clockReturn_lost h]
    refine ⟨by simp [modTracker, advanceTick], by simp, by simp, by simp, by simp, by simp, by simp, sampleRf_same _⟩

/-! ### What completes an epoch start -/

/-- The fields of the Tracker that the number of an epoch does not touch. -/
theorem takeNumber_keeps (t : Tracker) :
    t.takeNumber.tick = t.tick ∧ t.takeNumber.ref = t.ref ∧ t.takeNumber.lastPulse = t.lastPulse ∧
      t.takeNumber.history = t.history ∧ t.takeNumber.anchor = t.anchor ∧ t.takeNumber.next = t.next ∧
      t.takeNumber.current = t.current ∧ t.takeNumber.window = t.window ∧ t.takeNumber.h = t.h := by
  unfold Tracker.takeNumber
  split <;> exact ⟨rfl, rfl, rfl, rfl, rfl, rfl, rfl, rfl, rfl⟩

@[simp] theorem completeStart_tracker (s : State) : (completeStart s).tracker = s.tracker.takeNumber := by
  unfold completeStart
  dsimp only
  split <;> simp [modTracker]

@[simp] theorem renumberingFlush_alarms (s : State) :
    (renumberingFlush s).mgmt.alarms = s.mgmt.alarms ||| 16 := by
  simp [renumberingFlush, latch, Alarm.mask, Alarm.bit]

theorem completeStart_alarms (s : State) :
    (completeStart s).mgmt.alarms = s.mgmt.alarms ||| (if s.tracker.renumbers = true then 16 else 0) := by
  unfold completeStart
  dsimp only
  split <;> simp

/-! ### The kinds of epoch start -/

theorem epochPulse_noClock {s : State} (h : s.tracker.ref = .noClock) : epochPulse s = s := by simp [epochPulse, h]

theorem epochPulse_acquiring {s : State} (h : s.tracker.ref = .acquiring) :
    epochPulse s = completeStart (modTracker (Tracker.acquire s.mgmt.params.w) s) := by simp [epochPulse, h]

theorem epochPulse_accepted {s : State} (h : s.tracker.ref = .locked ∨ s.tracker.ref = .holdover)
    (hw : s.tracker.inWindow = true) : epochPulse s = completeStart (modTracker (Tracker.accept s.mgmt.params.w) s) := by
  rcases h with h | h <;> simp [epochPulse, h, hw]

theorem epochPulse_stray {s : State} (h : s.tracker.ref = .locked ∨ s.tracker.ref = .holdover)
    (hw : s.tracker.inWindow = false) : epochPulse s = countStrayPulse s := by
  rcases h with h | h <;> simp [epochPulse, h, hw]

/-- The fields of the Tracker after a pulse in ACQUIRING. -/
theorem acquire_fields {t : Tracker} (h : t.ref = .acquiring) (w : Nat) :
    let u := t.acquire w
    u.tick = t.tick ∧ u.anchor = some { start := tickFx t.tick, kind := .pulse } ∧ u.current = t.next ∧
    u.history = t.acquired ∧
    (t.acquired.length = 8 → u.ref = .locked ∧ u.h = 0 ∧ u.lastPulse = none ∧ u.window = some w ∧
      u.next = some { pred := fxAdd (tickFx t.tick) (t.acquired.sum * 8192 : Nat), sum8 := t.acquired.sum }) ∧
    (t.acquired.length ≠ 8 → u.ref = .acquiring ∧ u.lastPulse = some t.tick ∧ u.window = none ∧ u.next = none) := by
  by_cases hl : t.acquired.length = 8
  · simp [Tracker.acquire, hl, Config.historyDepth, Tracker.predict, Tracker.begin, Tracker.sum8]
  · simp [Tracker.acquire, hl, Config.historyDepth, Tracker.begin, h]

theorem acquired_first {t : Tracker} (h : t.lastPulse = none) : t.acquired = [] := by simp [Tracker.acquired, h]

theorem goodInterval_iff (d : Nat) : goodInterval d = true ↔ 9999000 ≤ d ∧ d ≤ 10001000 := by
  unfold goodInterval
  rw [Bool.and_eq_true, decide_eq_true_iff, decide_eq_true_iff]
  rfl

theorem acquired_later {t : Tracker} {l : Tick} (h : t.lastPulse = some l) :
    t.acquired = if 9999000 ≤ (t.tick - l).toNat ∧ (t.tick - l).toNat ≤ 10001000 then
      ((t.tick - l).toNat :: t.history).take 8 else [] := by
  simp only [Tracker.acquired, h, goodInterval_iff]
  rfl

/-- Settles O12, by the length of the history after the pulse. -/
theorem pulseAcquires : Obligations.PulseAcquires := by
  unfold Obligations.PulseAcquires
  intro s h
  refine ⟨_, congrArg Host.Outcome.next (epochPulse_acquiring h), ?_⟩
  obtain ⟨h1, h2, h3, h4, h5, h6, h7, h8, h9⟩ := takeNumber_keeps (modTracker (Tracker.acquire s.mgmt.params.w) s).tracker
  simp only [completeStart_tracker]
  rw [h1, h2, h3, h4, h5, h6, h7, h8, h9]
  have hu := acquire_fields h s.mgmt.params.w
  cases hp : s.tracker.lastPulse with
  | none => rw [acquired_first hp] at hu; exact hu
  | some l => rw [acquired_later hp] at hu; exact hu

/-- The window as a distance on the circle of ticks. -/
theorem inWindow_iff {t : Tracker} {w : Nat} {g : Grid} (hw : t.window = some w) (hg : t.next = some g) :
    t.inWindow = true ↔ (t.tick - (fxTick g.pred - BitVec.ofNat 56 w)).toNat ≤ 2 * w := by
  unfold Tracker.inWindow
  rw [hw, hg]
  exact decide_eq_true_iff

theorem inWindow_closed {t : Tracker} (h : t.window = none ∨ t.next = none) : t.inWindow = false := by
  unfold Tracker.inWindow
  split
  · next hw hg => rcases h with h | h <;> simp_all
  · rfl

theorem accepted_anchor {t : Tracker} {a : Anchor} (h : t.anchor = some a) :
    t.accepted = if a.kind = .pulse ∧ 9999000 ≤ (t.tick - fxTick a.start).toNat ∧ (t.tick - fxTick a.start).toNat ≤ 10001000 then
      ((t.tick - fxTick a.start).toNat :: t.history).take 8 else t.history := by
  simp only [Tracker.accepted, h, Bool.and_eq_true, goodInterval_iff, decide_eq_true_eq]
  rfl

theorem accepted_noAnchor {t : Tracker} (h : t.anchor = none) : t.accepted = t.history := by simp [Tracker.accepted, h]

theorem accepted_length {t : Tracker} (h : t.history.length = 8) : t.accepted.length = 8 := by
  unfold Tracker.accepted joinHistory
  repeat' split
  all_goals simp [h, Config.historyDepth]

/-- The fields of the Tracker after a pulse accepted with a full history. -/
theorem accept_fields {t : Tracker} (h : t.history.length = 8) (w : Nat) :
    let u := t.accept w
    u.tick = t.tick ∧ u.anchor = some { start := tickFx t.tick, kind := .pulse } ∧ u.history = t.accepted ∧
    u.ref = .locked ∧ u.h = 0 ∧ u.current = t.next ∧
    u.next = some { pred := fxAdd (tickFx t.tick) (t.accepted.sum * 8192 : Nat), sum8 := t.accepted.sum } ∧
    u.window = some w := by
  simp [Tracker.accept, accepted_length h, Config.historyDepth, Tracker.predict, Tracker.begin, Tracker.sum8]

/-- A counter holds at 65535. -/
theorem satInc_eq (x : BitVec 16) : satInc x = if x = 65535 then 65535 else x + 1 := by
  unfold satInc
  split
  · next h => exact h
  · rfl

/-- Settles O13: inside the window by the fields of an accepted pulse, outside it and in NO_CLOCK by the branches of
`epochPulse`. -/
theorem pulseInAndOutOfWindow : Obligations.PulseInAndOutOfWindow := by
  unfold Obligations.PulseInAndOutOfWindow
  refine ⟨fun s w g href hw hg hin hl => ?_, fun s => ⟨fun href hout => ?_, fun h => ?_⟩⟩
  · refine ⟨_, congrArg Host.Outcome.next (epochPulse_accepted href ((inWindow_iff hw hg).2 hin)), ?_⟩
    obtain ⟨h1, h2, h3, h4, h5, h6, h7, h8, h9⟩ := takeNumber_keeps (modTracker (Tracker.accept s.mgmt.params.w) s).tracker
    simp only [completeStart_tracker]
    rw [h1, h2, h4, h5, h6, h7, h8, h9]
    have hu := accept_fields hl s.mgmt.params.w
    rw [hg] at hu
    cases ha : s.tracker.anchor with
    | none => rw [accepted_noAnchor ha] at hu; exact hu
    | some a => rw [accepted_anchor ha] at hu; exact hu
  · have hout : s.tracker.inWindow = false := ?_
    · refine congrArg Host.Outcome.next ((epochPulse_stray href hout).trans ?_)
      simp only [countStrayPulse, modPart, satInc_eq]
    cases hw : s.tracker.window with
    | none => exact inWindow_closed (.inl hw)
    | some w =>
      cases hg : s.tracker.next with
      | none => exact inWindow_closed (.inr hg)
      | some g =>
        refine Bool.eq_false_iff.2 fun h => ?_
        have := hout w g hw hg
        have := (inWindow_iff hw hg).1 h
        omega
  · exact congrArg Host.Outcome.next (epochPulse_noClock h)

/-! ### Holdover -/

theorem windowPassed_at {t : Tracker} {w : Nat} {g : Grid} (href : t.ref = .locked ∨ t.ref = .holdover)
    (hw : t.window = some w) (hg : t.next = some g) (ht : t.tick = fxTick g.pred + BitVec.ofNat 56 (w + 1)) :
    t.windowPassed = true := by
  unfold Tracker.windowPassed
  rw [hw, hg]
  rcases href with h | h <;> rw [h] <;> exact decide_eq_true ht

/-- Where the window has passed there was a prediction. -/
theorem windowPassed_next {t : Tracker} (h : t.windowPassed = true) : ∃ g, t.next = some g := by
  unfold Tracker.windowPassed at h
  split at h
  · next hg => exact ⟨_, hg⟩
  · next hg => exact ⟨_, hg⟩
  · cases h

/-- A HOLDOVER epoch start, its anchor set and h counted. -/
def heldOver (s : State) : State := latchIf (s.tracker.ref = .locked) .holdover (modTracker Tracker.holdOver s)

theorem heldOver_tracker (s : State) : (heldOver s).tracker = s.tracker.holdOver := by simp [heldOver, modTracker]

theorem heldOver_keeps (s : State) :
    (heldOver s).align = s.align ∧ (heldOver s).batches = s.batches ∧ (heldOver s).store = s.store ∧
    (heldOver s).carriers = s.carriers ∧ (heldOver s).probe = s.probe ∧ (heldOver s).link = s.link ∧
    (heldOver s).mgmt.params = s.mgmt.params ∧ (heldOver s).mgmt.counters = s.mgmt.counters ∧
    (∀ c, (heldOver s).car c = s.car c) := by
  simp [heldOver]

theorem heldOver_alarms (s : State) :
    (heldOver s).mgmt.alarms = s.mgmt.alarms ||| (if s.tracker.ref = .locked then 2 else 0) := by
  by_cases h : s.tracker.ref = .locked <;> simp [heldOver, latchIf, h, latch, Alarm.mask, Alarm.bit]

theorem holdOver_fields {t : Tracker} {g : Grid} (hg : t.next = some g) :
    t.holdOver = { t with
      anchor := some { start := g.pred, kind := .holdover }, current := some g, next := none, window := none, ref := .holdover
      h := if t.ref = .locked then 1 else t.h + 1 } := by
  simp [Tracker.holdOver, hg, Tracker.begin]

theorem holdoverStart_kept {s : State} (h : s.tracker.windowPassed = true) (hh : s.tracker.holdOver.h ≤ s.mgmt.params.h) :
    holdoverStart s = completeStart (modTracker (Tracker.predict s.mgmt.params.w) (heldOver s)) :=
  (if_pos h).trans (if_pos (show (heldOver s).tracker.h ≤ _ by rwa [heldOver_tracker]))

theorem holdoverStart_expires {s : State} (h : s.tracker.windowPassed = true) (hh : s.mgmt.params.h < s.tracker.holdOver.h) :
    holdoverStart s = expireHoldover (heldOver s) :=
  (if_pos h).trans (if_neg (show ¬ (heldOver s).tracker.h ≤ _ by rw [heldOver_tracker]; omega))

/-- The prediction leaves what the number of an epoch is taken from. -/
theorem predict_numbers (w : Nat) (t : Tracker) :
    (t.predict w).epoch = t.epoch ∧ (t.predict w).pending = t.pending ∧ (t.predict w).mismatchRun = t.mismatchRun := by
  unfold Tracker.predict
  split <;> exact ⟨rfl, rfl, rfl⟩

theorem renumbers_congr {t u : Tracker} (he : u.epoch = t.epoch) (hp : u.pending = t.pending) : u.renumbers = t.renumbers := by
  simp only [Tracker.renumbers, he, hp]

/-- Settles O14, by the fields of a held-over Tracker and its prediction. -/
theorem holdoverStarts : Obligations.HoldoverStarts := by
  unfold Obligations.HoldoverStarts
  intro s w g href hw hg ht hl hh
  have hf := holdOver_fields hg
  refine ⟨_, congrArg Host.Outcome.next (holdoverStart_kept (windowPassed_at href hw hg ht) (by rw [hf]; exact hh)), ?_⟩
  obtain ⟨-, h2, -, h4, h5, h6, h7, h8, h9⟩ :=
    takeNumber_keeps (modTracker (Tracker.predict s.mgmt.params.w) (heldOver s)).tracker
  have hp : (modTracker (Tracker.predict s.mgmt.params.w) (heldOver s)).tracker = s.tracker.holdOver.predict s.mgmt.params.w := by
    simp [modTracker, heldOver_tracker]
  have hr : (s.tracker.holdOver.predict s.mgmt.params.w).renumbers = s.tracker.renumbers :=
    renumbers_congr ((predict_numbers _ _).1.trans (by rw [hf])) ((predict_numbers _ _).2.1.trans (by rw [hf]))
  simp only [completeStart_tracker]
  rw [h2, h4, h5, h6, h7, h8, h9, completeStart_alarms, hp, hr]
  simp [hf, Tracker.predict, Tracker.sum8, hl, Config.historyDepth, heldOver_alarms]

/-! ### The numbers of the starts -/

/-- Two Trackers from which an epoch start takes the same number. -/
def SameNumbers (t u : Tracker) : Prop := u.epoch = t.epoch ∧ u.pending = t.pending ∧ u.mismatchRun = t.mismatchRun

theorem SameNumbers.renumbers {t u : Tracker} (h : SameNumbers t u) : u.renumbers = t.renumbers := renumbers_congr h.1 h.2.1

theorem SameNumbers.takes {t u : Tracker} (h : SameNumbers t u) :
    u.takeNumber.epoch = t.takeNumber.epoch ∧ u.takeNumber.pending = none ∧
      u.takeNumber.mismatchRun = (if t.pending.isSome then 0 else t.mismatchRun) := by
  obtain ⟨he, hp, hm⟩ := h
  unfold Tracker.takeNumber
  rw [hp, he]
  cases hq : t.pending with
  | none => simp [hm]
  | some p => simp

theorem acquire_numbers (w : Nat) (t : Tracker) : SameNumbers t (t.acquire w) := by
  unfold Tracker.acquire
  dsimp only
  split
  · exact predict_numbers _ _
  · exact ⟨rfl, rfl, rfl⟩

theorem accept_numbers (w : Nat) (t : Tracker) : SameNumbers t (t.accept w) := predict_numbers _ _

theorem holdOver_numbers (t : Tracker) : SameNumbers t t.holdOver := by
  unfold Tracker.holdOver
  split <;> exact ⟨rfl, rfl, rfl⟩

/-- Every epoch start completes a state whose Tracker takes its number from the same pending number, or expires. -/
theorem startsEpoch_cases {e : Instr} {s : State} (h : StartsEpoch e s) :
    (∃ u, exec e s = .next (completeStart u) ∧ SameNumbers s.tracker u.tracker ∧ u.batches = s.batches ∧ u.store = s.store ∧
      u.carriers = s.carriers ∧ u.align = s.align ∧ u.link = s.link ∧ u.probe = s.probe ∧ u.mgmt.params = s.mgmt.params ∧
      u.mgmt.counters = s.mgmt.counters) ∨
    (e = .holdoverEpochStart ∧ s.mgmt.params.h < s.tracker.holdOver.h ∧ exec e s = .next (expireHoldover (heldOver s))) := by
  rcases h with ⟨rfl, h⟩ | ⟨rfl, h⟩
  · refine .inl ?_
    rcases h with h | ⟨h, hw⟩
    · exact ⟨_, congrArg Host.Outcome.next (epochPulse_acquiring h), acquire_numbers _ _, by simp⟩
    · exact ⟨_, congrArg Host.Outcome.next (epochPulse_accepted h hw), accept_numbers _ _, by simp⟩
  · by_cases hh : s.tracker.holdOver.h ≤ s.mgmt.params.h
    · refine .inl ⟨_, congrArg Host.Outcome.next (holdoverStart_kept h hh), ?_, by simp [heldOver_keeps]⟩
      obtain ⟨h1, h2, h3⟩ := holdOver_numbers s.tracker
      obtain ⟨h4, h5, h6⟩ := predict_numbers s.mgmt.params.w (heldOver s).tracker
      rw [heldOver_tracker] at h4 h5 h6
      simp only [modTracker, State.setTracker_tracker, heldOver_tracker]
      exact ⟨h4.trans h1, h5.trans h2, h6.trans h3⟩
    · exact .inr ⟨rfl, by omega, congrArg Host.Outcome.next (holdoverStart_expires h (by omega))⟩

theorem expireHoldover_tracker (s : State) : (expireHoldover s).tracker = s.tracker.expire.takeNumber := by
  unfold expireHoldover
  dsimp only
  split <;> simp [modTracker]

theorem expired_numbers (s : State) : SameNumbers s.tracker (heldOver s).tracker.expire := by
  rw [heldOver_tracker]
  exact holdOver_numbers s.tracker

theorem takeNumber_epoch (s : State) : s.tracker.takeNumber.epoch = numberTaken s := by
  unfold numberTaken Tracker.takeNumber
  cases s.tracker.pending <;> rfl

/-- Settles O16: each start's Tracker takes the number that the state before it was to take. -/
theorem epochNumberTaken : Obligations.EpochNumberTaken := by
  unfold Obligations.EpochNumberTaken
  intro e s h
  have number (u : Tracker) (hu : SameNumbers s.tracker u) :
      u.takeNumber.epoch = numberTaken s ∧ u.takeNumber.pending = none ∧
        u.takeNumber.mismatchRun = (if s.tracker.pending.isSome then 0 else s.tracker.mismatchRun) :=
    ⟨hu.takes.1.trans (takeNumber_epoch s), hu.takes.2⟩
  rcases startsEpoch_cases h with ⟨u, hu, hn, -⟩ | ⟨-, -, hu⟩
  · refine ⟨_, hu, ?_⟩
    rw [completeStart_tracker]
    exact number _ hn
  · refine ⟨_, hu, ?_⟩
    rw [expireHoldover_tracker]
    exact number _ (expired_numbers s)

end Sys2Proof.Machine
end

section
/-! The link: frames not taken, odd bodies, sync, relays, and what is sent. -/

namespace Sys2Proof.Machine

open Sys2Proof.Safety

/-! ### Frames received on UP -/

/-- A row of frames received on UP is a reception that takes its frames in some way. -/
def ReceivesBy (k : Byte) (row : RxFrame → Instr) : Prop :=
  ∃ take : Frame → State → State, ∀ f s, exec (row f) s = .next (receiveUp k take f s)

theorem upRows_receive : ∀ r ∈ upRows, ReceivesBy r.1 r.2 := by
  simp only [upRows, List.forall_mem_cons]
  refine ⟨?_, ?_, ?_, ?_, ?_, ?_, ?_, ?_, ?_, ?_, ?_, ?_, ?_, ?_, ?_, ?_, ?_, ?_, ?_, ?_, ?_, ?_, fun _ h => by cases h⟩ <;>
    exact ⟨_, fun _ _ => rfl⟩

theorem exec_unknownRequest {k : Byte} (h : kindUnknown k = true) (f : RxFrame) (s : State) :
    exec (.unknownRequest k f) s = .next (receiveUp k (takeRequest 0 ownerUnknown) f s) :=
  congrArg Host.Outcome.next (if_pos h)

/-- Settles O20: each row is a reception, and a reception takes neither a bad frame nor one for another site. -/
theorem untakenFramesFiltered : Obligations.UntakenFramesFiltered := by
  unfold Obligations.UntakenFramesFiltered
  intro k row hrow f s
  have hr : ReceivesBy k row := by
    rcases hrow with hrow | ⟨hk, rfl⟩
    · exact upRows_receive _ hrow
    · exact ⟨_, exec_unknownRequest hk⟩
  obtain ⟨take, hex⟩ := hr
  refine ⟨fun hbad => ?_, fun hgood h0 hb hs => ?_⟩
  · have hn : ¬ Takes k f s := fun ⟨hg, hd, _⟩ => by rcases hbad with h | h <;> simp_all
    rw [hex, receiveUp_untaken hn, if_pos hbad]
    rfl
  · have hn : ¬ Takes k f s := fun ⟨_, _, hd⟩ => hd.elim hb hs
    rw [hex, receiveUp_untaken hn, if_neg (not_or.2 ⟨by simp [hgood], h0⟩)]
    rfl

/-- Settles O21: traffic by the length of its body, a short request before its owner, and a request of no owner. -/
theorem oddBodiesAnswered : Obligations.OddBodiesAnswered := by
  unfold Obligations.OddBodiesAnswered
  have traffic {k : TrafficKind} {kind : Byte} {len : Nat} (owner : List Byte → State → State) (f : RxFrame) (s : State)
      (h : Takes kind f s) (hl : f.body.length ≠ len) : (.next (receiveUp kind (takeTraffic k len owner) f s) :
      Host.Outcome State Fault Refusal) = .next (countUnmatched k (carried k kind f s)) :=
    congrArg Host.Outcome.next ((takeTraffic_owner h owner).trans (if_neg hl))
  have short {kind : Byte} {len : Nat} (owner : List Byte → State → Answer) (f : RxFrame) (s : State)
      (h : Takes kind f s) (hl : f.body.length < len) : (.next (receiveUp kind (takeRequest len owner) f s) :
      Host.Outcome State Fault Refusal) = .next (replied kind f 0x02 [] (requested kind f s)) :=
    congrArg Host.Outcome.next (takeRequest_short h hl owner)
  refine ⟨?_, ?_, fun k f s hk h => ?_⟩
  · simp only [trafficRows, List.forall_mem_cons]
    exact ⟨traffic ownerTimeMark, traffic ownerHeader, traffic ownerBlock, traffic ownerCancel, fun _ h => by cases h⟩
  · simp only [layoutRows, List.forall_mem_cons]
    exact ⟨short ownerLoadSite, short ownerClearAlarms, short ownerLoadAlign, short ownerCommitAlign, short ownerReadAlign,
      short ownerEpochSet, short ownerSchedule, short ownerStandby, short ownerMarkerLoad, short ownerMarkerClear,
      short ownerProbeStart, short ownerGuardTest, fun _ h => by cases h⟩
  · rw [exec_unknownRequest hk]
    exact congrArg Host.Outcome.next (takeRequest_owner h (Nat.zero_le _) _ rfl)

/-! ### Sync and relays -/

/-- Settles O22, by the state of the port's receiver. -/
theorem syncStartsFrame : Obligations.SyncStartsFrame := by
  unfold Obligations.SyncStartsFrame
  intro s
  have hs (p : Port) : syncWordMatch p 0xA5C3 s = match p with
      | .up => if s.link.rxUp = .hunt then s.setLink { s.link with rxUp := .inFrame [] } else s
      | .down => if s.link.rxDown = .hunt then s.setLink { s.link with rxDown := .inFrame [] } else s := if_pos rfl
  refine ⟨fun h => ?_, fun h => ?_, fun b h => ?_, fun b h => ?_, fun p w h => congrArg Host.Outcome.next (if_neg h)⟩
  · exact congrArg Host.Outcome.next ((hs .up).trans (if_pos h))
  · exact congrArg Host.Outcome.next ((hs .down).trans (if_pos h))
  · exact congrArg Host.Outcome.next ((hs .up).trans (if_neg (by rw [h]; nofun)))
  · exact congrArg Host.Outcome.next ((hs .down).trans (if_neg (by rw [h]; nofun)))

/-- Settles O23, by the check of the frame and the room in the relay queue. -/
theorem downFrameRelayed : Obligations.DownFrameRelayed := by
  unfold Obligations.DownFrameRelayed
  intro f s
  have hd : downFrameRelay f s = if goodFrame f then offerRelay f (s.setLink { s.link with rxDown := .hunt })
      else countBadFrame (s.setLink { s.link with rxDown := .hunt }) := rfl
  refine ⟨fun hg hl => ?_, fun hg hl => ?_, fun hg => ?_⟩
  · exact congrArg Host.Outcome.next (hd.trans ((if_pos hg).trans (if_pos hl)))
  · exact congrArg Host.Outcome.next (hd.trans ((if_pos hg).trans (if_neg (Nat.not_lt.2 hl))))
  · exact congrArg Host.Outcome.next (hd.trans (if_neg (by rw [hg]; nofun)))

/-! ### Transmission -/

theorem upTxStart_own {s : State} {f : Frame} {rest : List Frame} (hs : s.link.sending = none) (ho : s.link.own = f :: rest)
    (hq : startQueue s.link = some .own) :
    upTxStart s = s.setLink { s.link with own := rest, sending := some (.own, f), chosen := none } := by
  simp [upTxStart, hs, hq, queueHead, dropHead, ho]

theorem upTxStart_relay {s : State} {f : Frame} {rest : List Frame} (hs : s.link.sending = none)
    (hr : s.link.relay = f :: rest) (hq : startQueue s.link = some .relay) :
    upTxStart s = s.setLink { s.link with relay := rest, sending := some (.relay, f), chosen := none } := by
  simp [upTxStart, hs, hq, queueHead, dropHead, hr]

/-- The arbiter chooses nothing exactly where both queues are empty. -/
theorem arbiterChoice_none (l : Link) : arbiterChoice l = none ↔ l.own = [] ∧ l.relay = [] := by
  unfold arbiterChoice
  split <;> simp_all

theorem arbiterChoice_turn {l : Link} (h : (match l.turn with | .own => l.own | .relay => l.relay) ≠ []) :
    arbiterChoice l = some l.turn := by
  unfold arbiterChoice
  split <;> cases hq : l.turn <;> simp_all

/-- The end of a frame: an IDLE transmitter, the turn with the other queue, and the arbiter's new choice. -/
theorem upTxEnd_sending {s : State} {q : QueueName} {f : Frame} (hs : s.link.sending = some (q, f)) (hc : s.link.chosen = none) :
    upTxEnd s = s.setLink { s.link with
      sending := none, turn := otherQueue q
      chosen := arbiterChoice { s.link with sending := none, turn := otherQueue q } } := by
  simp [upTxEnd, hs, chooseIfIdle, hc]

/-- Settles O24, by the queue chosen. -/
theorem linkTransmits : Obligations.LinkTransmits := by
  unfold Obligations.LinkTransmits
  refine ⟨fun s f rest h => ⟨fun hr => ?_, fun hr => ?_⟩, fun s => ⟨?_, ?_, ?_, ?_⟩⟩
  · exact congrArg Host.Outcome.next (by simp [repeatTxStart, h, hr])
  · exact congrArg Host.Outcome.next (by simp [repeatTxEnd, h, hr])
  · intro f rest hs ho hc
    refine congrArg Host.Outcome.next (upTxStart_own hs ho ?_)
    rcases hc with hc | ⟨hc, hr | ht⟩
    · simp [startQueue, hc]
    · simp [startQueue, hc, arbiterChoice, ho, hr]
    · simpa [startQueue, hc, ht] using arbiterChoice_turn (l := s.link) (by simp [ht, ho])
  · intro f rest hs hr hc
    refine congrArg Host.Outcome.next (upTxStart_relay hs hr ?_)
    rcases hc with hc | ⟨hc, ho | ht⟩
    · simp [startQueue, hc]
    · simp [startQueue, hc, arbiterChoice, ho, hr]
    · simpa [startQueue, hc, ht] using arbiterChoice_turn (l := s.link) (by simp [ht, hr])
  · intro f hs hc
    refine ⟨_, congrArg Host.Outcome.next (upTxEnd_sending hs hc), rfl, arbiterChoice_none _, fun h => ?_⟩
    exact arbiterChoice_turn (l := { s.link with sending := none, turn := .relay }) h
  · intro f hs hc
    refine ⟨_, congrArg Host.Outcome.next (upTxEnd_sending hs hc), rfl, arbiterChoice_none _, fun h => ?_⟩
    exact arbiterChoice_turn (l := { s.link with sending := none, turn := .own }) h

/-! ### Time marks and EPOCH_SET -/

/-- Settles O26, by the reference state. -/
theorem epochSetForces : Obligations.EpochSetForces := by
  unfold Obligations.EpochSetForces
  intro f s h hl
  have hexec {a : Answer} (ha : ownerEpochSet f.body (requested 0x2C f s) = a) :
      exec (.epochSet f) s = .next (replied 0x2C f (replyOctet a.code) a.content a.state) :=
    congrArg Host.Outcome.next (takeRequest_owner h hl ownerEpochSet ha)
  refine ⟨fun hr => ?_, fun hr => ?_⟩
  · refine (hexec (if_neg ?_)).trans ?_
    · simpa using hr
    · simp [modTracker, replyOctet]
  · exact hexec (if_pos (by simpa using hr))

end Sys2Proof.Machine
end

section
/-! Time marks, ENABLE_SERVICE, and the frames this part forms. -/

namespace Sys2Proof.Machine

open Sys2Proof.Safety

/-! ### Time marks -/

theorem guard_window {t : Tracker} {g : Grid} (hr : t.ref = .locked ∨ t.ref = .holdover) (hg : t.next = some g) :
    t.guard = some (fxTick g.pred - BitVec.ofNat 56 500000) := by
  rcases hr with hr | hr <;> simp only [Tracker.guard, hr, hg] <;> rfl

theorem guard_acquiring {t : Tracker} (hr : t.ref = .acquiring) :
    t.guard = t.lastPulse.map fun l => l + BitVec.ofNat 56 9500000 := by
  simp only [Tracker.guard, hr]
  rfl

theorem rejectsMark_iff (t : Tracker) :
    t.rejectsMark = true ↔ t.ref = .noClock ∨ ∃ g, t.guard = some g ∧ t.tick ≠ g ∧ tickReached t.tick g = true := by
  unfold Tracker.rejectsMark
  cases t.guard <;> simp

theorem rejectsMark_false {t : Tracker} (h : MarkPasses t) : t.rejectsMark = false := by
  refine Bool.eq_false_iff.2 fun hr => ?_
  rw [rejectsMark_iff] at hr
  rcases h with ⟨g, href, hg, hin⟩ | ⟨href, hin⟩
  · rcases hr with hr | ⟨x, hx, hne, hre⟩
    · rcases href with h | h <;> simp [h] at hr
    · rw [guard_window href hg] at hx
      injection hx with hx
      subst hx
      rcases hin with h | h
      · exact hne h
      · rw [h] at hre; cases hre
  · rcases hr with hr | ⟨x, hx, hne, hre⟩
    · simp [href] at hr
    · rw [guard_acquiring href] at hx
      obtain ⟨l, hl, rfl⟩ := Option.map_eq_some_iff.1 hx
      rcases hin l hl with h | h
      · exact hne h
      · rw [h] at hre; cases hre

theorem forcedPending_iff (t : Tracker) : t.forcedPending = true ↔ t.pending.map PendingNumber.kind = some .forced := by
  unfold Tracker.forcedPending
  cases t.pending <;> simp

theorem withdrawAdopt_eq (p : Option PendingNumber) :
    withdrawAdopt p = if p.map PendingNumber.kind = some .adopt then none else p := by
  cases p with
  | none => rfl
  | some q => simp [withdrawAdopt]

theorem setMark_eq (n : EpochNo) (t : Tracker) : t.setMark n = { t with
    pending := if t.pending.map PendingNumber.kind = some .forced then t.pending else some { kind := .markSet, number := n } } := by
  unfold Tracker.setMark
  by_cases h : t.forcedPending = true
  · rw [if_pos h, if_pos ((forcedPending_iff t).1 h)]
  · rw [if_neg h, if_neg (fun e => h ((forcedPending_iff t).2 e))]

theorem mismatch_eq (n e : EpochNo) (t : Tracker) :
    let offset := n - e
    let run := if t.mismatchRun = 0 ∨ offset ≠ t.mismatchOffset then 1 else min (t.mismatchRun + 1) 3
    t.mismatch n e = { t with
      mismatchRun := run, mismatchOffset := offset
      pending := (if t.pending.map PendingNumber.kind = some .forced then t.pending
        else if run = 1 then (if t.pending.map PendingNumber.kind = some .adopt then none else t.pending)
        else if run = 3 then some { kind := .adopt, number := n } else t.pending) } := by
  have hrun : t.nextRun (n - e) = if t.mismatchRun = 0 ∨ n - e ≠ t.mismatchOffset then 1 else min (t.mismatchRun + 1) 3 := by
    simp [Tracker.nextRun]
  dsimp only
  rw [← hrun, ← withdrawAdopt_eq]
  unfold Tracker.mismatch Tracker.pendingAfter
  simp only [forcedPending_iff]

/-- Settles O25: the guard, then the number of the mark against the one expected. -/
theorem timeMarkJudged : Obligations.TimeMarkJudged := by
  unfold Obligations.TimeMarkJudged
  have hexec {f : RxFrame} {s : State} (h : Takes 0x01 f s) (hl : f.body.length = 4) :
      exec (.timeMark f) s = .next (if s.tracker.rejectsMark then countMarkRejected (carried .timeMark 0x01 f s)
        else takeMark (BitVec.ofNat 32 (field f.body 0 4)) (carried .timeMark 0x01 f s)) := by
    refine congrArg Host.Outcome.next ((takeTraffic_owner h ownerTimeMark).trans ((if_pos hl).trans ?_))
    unfold ownerTimeMark
    rw [(carried_keeps _ _ _ _).1]
  refine ⟨fun f s h hl hrej => ?_, fun t => rejectsMark_false, fun f s h hl hpass => ?_⟩
  · rw [hexec h hl, if_pos]
    rw [rejectsMark_iff]
    rcases hrej with h | ⟨g, hr, hg, hne, hre⟩ | ⟨l, hr, hl, hne, hre⟩
    · exact .inl h
    · exact .inr ⟨_, guard_window hr hg, hne, hre⟩
    · exact .inr ⟨_, by rw [guard_acquiring hr, hl]; rfl, hne, hre⟩
  · have hpass : s.tracker.rejectsMark = false := hpass.elim rejectsMark_false id
    rw [hexec h hl, hpass]
    have ht := (carried_keeps .timeMark 0x01 f s).1
    refine ⟨fun he => ?_, fun e he hn => ?_, fun e he hn => ?_⟩
    · simp [takeMark, he, modTracker, setMark_eq]
    · simp [takeMark, he, hn, modTracker, withdrawAdopt_eq]
    · simp only [takeMark, ht, he, if_neg hn, modTracker, mismatch_eq]
      rfl

/-! ### ENABLE_SERVICE -/

section
variable (body : List Byte) {s : State}

theorem ownerEnableService_unconfigured (h : s.mgmt.service = .unconfigured) :
    ownerEnableService body s = Answer.refuse .refusedState s := by simp only [ownerEnableService, h]

theorem ownerEnableService_configured (h : s.mgmt.service = .configured) : ownerEnableService body s =
    { code := .ok, content := identity s, state := s.setMgmt { s.mgmt with service := .serving } } := by
  simp only [ownerEnableService, h]

theorem ownerEnableService_serving (h : s.mgmt.service = .serving) :
    ownerEnableService body s = { code := .ok, content := identity s, state := s } := by simp only [ownerEnableService, h]

end

/-- Settles O57, by the service state. -/
theorem enableServiceJudged : Obligations.EnableServiceJudged := by
  unfold Obligations.EnableServiceJudged
  intro f s h
  have hexec {a : Answer} (ha : ownerEnableService f.body (requested 0x21 f s) = a) :
      exec (.enableService f) s = .next (replied 0x21 f (replyOctet a.code) a.content a.state) :=
    congrArg Host.Outcome.next (takeRequest_owner h (Nat.zero_le _) ownerEnableService ha)
  have hs : (requested 0x21 f s).mgmt.service = s.mgmt.service := by simp
  have hi : identity (requested 0x21 f s) = 0x4C :: 0x34 :: 0x01 :: (octets 2 s.link.siteAddress.toNat ++
      octets 2 s.align.active.tag.toNat ++ octets 2 s.align.staged.tag.toNat) := by simp [identity, octets]
  refine ⟨fun hu => hexec (ownerEnableService_unconfigured _ (hs.trans hu)), fun hu => ?_, fun hu => ?_⟩
  · rw [← hi]
    exact hexec (ownerEnableService_configured _ (hs.trans hu))
  · rw [← hi]
    exact hexec (ownerEnableService_serving _ (hs.trans hu))

/-! ### The check -/

/-- One bit of the check as the statement of the check gives it. -/
def checkBit (r : BitVec 16) (bit : Bool) : BitVec 16 := if r.msb = bit then r <<< 1 else (r <<< 1) ^^^ 0x1021

/-- What is added to the register before a shift is taken in as its highest bit and shifted itself. -/
theorem crcShift_xor (r x : BitVec 16) : crcShift (r ^^^ x) = checkBit r x.msb ^^^ (x <<< 1) := by
  unfold crcShift checkBit
  rw [BitVec.msb_xor, BitVec.shiftLeft_xor_distrib]
  cases r.msb <;> cases x.msb <;> simp [BitVec.xor_assoc, BitVec.xor_comm (x <<< 1)]

theorem crcShifts_xor (n : Nat) (r x : BitVec 16) :
    crcShifts n (r ^^^ x) = ((List.range n).map fun i => (x <<< i).msb).foldl checkBit r ^^^ (x <<< n) := by
  induction n generalizing r x with
  | zero => simp [crcShifts]
  | succ n ih =>
    rw [crcShifts, crcShift_xor, ih, List.range_succ_eq_map, List.map_cons, List.foldl_cons, List.map_map]
    simp [Function.comp_def, ← BitVec.shiftLeft_add, Nat.add_comm]

/-- An octet of the check, bit by bit, most significant first. -/
theorem crcOctet_bits (r : BitVec 16) (b : Byte) :
    crcOctet r b = ((List.range 8).map fun i => b.getLsbD (7 - i)).foldl checkBit r := by
  have hx : BitVec.ofNat 16 (b.toNat * 256) = b.setWidth 16 <<< 8 := by
    apply BitVec.eq_of_toNat_eq
    simp [Nat.shiftLeft_eq]
  unfold crcOctet
  rw [hx, crcShifts_xor, ← BitVec.shiftLeft_add]
  have h0 : b.setWidth 16 <<< (8 + 8) = 0#16 := by simp
  have hbits : ((List.range 8).map fun i => (b.setWidth 16 <<< 8 <<< i).msb) = (List.range 8).map fun i => b.getLsbD (7 - i) := by
    refine List.map_congr_left fun i hi => ?_
    have hi : i < 8 := List.mem_range.1 hi
    rw [BitVec.msb_eq_getLsbD_last]
    have h1 : ¬ 15 < i := by omega
    have h2 : ¬ 15 - i < 8 := by omega
    have h3 : 15 - i - 8 = 7 - i := by omega
    simp [h1, h2, h3]
  rw [h0, hbits, BitVec.xor_zero]

theorem crc_bits (bs : List Byte) :
    crc bs = (bs.flatMap fun b => (List.range 8).map fun i => b.getLsbD (7 - i)).foldl checkBit 0xFFFF := by
  rw [List.foldl_flatMap]
  exact congrArg (fun f => bs.foldl f 0xFFFF) (funext fun r => funext fun b => crcOctet_bits r b)

/-- Destination and source as three octets, four bits of each in the middle one. -/
theorem addressOctets (d r : BitVec 12) :
    octets 3 (d.toNat * 4096 + r.toNat) = [d.extractLsb' 4 8, d.extractLsb' 0 4 ++ r.extractLsb' 8 4, r.extractLsb' 0 8] := by
  have hd := d.isLt
  have hr := r.isLt
  have h1 : BitVec.ofNat 8 ((d.toNat * 4096 + r.toNat) / 256 ^ 2) = d.extractLsb' 4 8 := by
    apply BitVec.eq_of_toNat_eq
    simp only [BitVec.toNat_ofNat, BitVec.extractLsb'_toNat, Nat.shiftRight_eq_div_pow]
    omega
  have h2 : BitVec.ofNat 8 ((d.toNat * 4096 + r.toNat) / 256 ^ 1) = d.extractLsb' 0 4 ++ r.extractLsb' 8 4 := by
    apply BitVec.eq_of_toNat_eq
    have hlt : (r.toNat >>> 8) % 2 ^ 4 < 2 ^ 4 := Nat.mod_lt _ (by decide)
    simp only [BitVec.toNat_ofNat, BitVec.toNat_append, BitVec.extractLsb'_toNat]
    rw [← Nat.shiftLeft_add_eq_or_of_lt hlt, Nat.shiftLeft_eq]
    simp only [Nat.shiftRight_eq_div_pow]
    omega
  have h3 : BitVec.ofNat 8 ((d.toNat * 4096 + r.toNat) / 256 ^ 0) = r.extractLsb' 0 8 := by
    apply BitVec.eq_of_toNat_eq
    simp only [BitVec.toNat_ofNat, BitVec.extractLsb'_toNat, Nat.shiftRight_eq_div_pow]
    omega
  simp only [octets, h1, h2, h3]

theorem checkedOctets_eq (f : Frame) : checkedOctets f =
    f.dest.extractLsb' 4 8 :: (f.dest.extractLsb' 0 4 ++ f.src.extractLsb' 8 4) :: f.src.extractLsb' 0 8 ::
      f.kind :: f.tag :: f.body := by
  rw [checkedOctets, addressOctets]
  rfl

theorem goodFrame_iff (f : Frame) : goodFrame f = true ↔ f.check = crc (checkedOctets f) := decide_eq_true_iff

theorem goodFrame_seal (dest src : BitVec 12) (kind tag : Byte) (body : List Byte) :
    goodFrame (sealFrame dest src kind tag body) = true := (goodFrame_iff _).2 rfl

/-! ### Cycle reports and the attention flag -/

/-- The groups of a list whose elements each give `len` octets stand at the multiples of `len`, whatever follows. -/
theorem take_drop_flatMap {α : Type} {g : α → List Byte} {len : Nat} (hg : ∀ x, (g x).length = len) (l : List α) (tail : List Byte)
    (i : Nat) (hi : i < l.length) : ((l.flatMap g ++ tail).drop (len * i)).take len = g l[i] := by
  induction l generalizing i with
  | nil => cases hi
  | cons x xs ih =>
    rw [List.flatMap_cons, List.append_assoc]
    cases i with
    | zero => simp [← hg x]
    | succ i =>
      have hd : len * (i + 1) = (g x).length + len * i := by rw [hg]; ring
      rw [hd, List.drop_length_add_append]
      simpa using ih i (by simpa using hi)

theorem length_reportEntry (e : Option SlotOutcome) : (reportEntry e).length = 4 := by
  unfold reportEntry optOctets
  repeat' split
  all_goals simp [length_octets]

theorem length_reportEntries (l : List (Option SlotOutcome)) : (l.flatMap reportEntry).length = 4 * l.length := by
  simp [List.length_flatMap, length_reportEntry, Nat.mul_comm]

theorem reportEntry_eq (e : Option SlotOutcome) : reportEntry e =
    (match e with
      | none => [0, 0, 0, 0]
      | some o => BitVec.ofNat 8 (codeNumber o.code) ::
        (match o.id with
          | none => [0, 0, 0]
          | some b => 1 :: octets 2 b.toNat)) := by
  cases e with
  | none => rfl
  | some o =>
    cases hid : o.id with
    | none => simp [reportEntry, hid, optOctets, octets]
    | some b => simp [reportEntry, hid, octets_one, optOctets]

/-- The body of a cycle report: flags, carrier, cycle and the entries. -/
theorem reportFrame_body (c : Carrier) (n : CycleNo) (s : State) : (reportFrame c n s).body =
    BitVec.ofNat 8 (flagsOctet s + (if s.store.low then 2 else 0)) :: BitVec.ofNat 8 (carrierNumber c) ::
      (octets 4 n.toNat ++ (s.car c).sched.outcomes.entries.toList.flatMap reportEntry) := by
  simp [reportFrame, sealFrame, octets_one]

theorem reportFlags (s : State) : BitVec.ofNat 8 (flagsOctet s + (if s.store.low then 2 else 0)) =
    (if attention s then 1 else 0) + (if s.store.low then 2 else 0) := by
  unfold flagsOctet
  cases attention s <;> cases s.store.low <;> rfl

/-- Attention: some latched alarm is not masked. -/
theorem attention_iff (s : State) :
    attention s = true ↔ ∃ i : Fin 32, s.mgmt.alarms.getLsbD i = true ∧ s.mgmt.params.mask.getLsbD i = false := by
  unfold attention
  rw [bne_iff_ne, ne_eq, BitVec.eq_of_getLsbD_eq_iff]
  simp only [BitVec.getLsbD_and, BitVec.getLsbD_not]
  constructor
  · intro h
    push Not at h
    obtain ⟨i, hi, h⟩ := h
    refine ⟨⟨i, hi⟩, ?_⟩
    simpa [hi] using h
  · rintro ⟨i, h1, h2⟩ h
    have h := h i.val i.isLt
    rw [h1, h2] at h
    simp at h

/-- Settles O19: the check bit by bit, then the frames sealed with it. -/
theorem ownFramesFormed : Obligations.OwnFramesFormed := by
  unfold Obligations.OwnFramesFormed
  refine ⟨crc_bits, fun f => ?_, fun c n s => ?_, fun k f code content t => ?_⟩
  · rw [goodFrame_iff, checkedOctets_eq]
  · have hb := reportFrame_body c n s
    refine ⟨rfl, rfl, rfl, rfl, goodFrame_seal _ _ _ _ _, ?_, ?_, ?_, ?_, fun i => ?_⟩
    · rw [hb]
      simp only [List.length_cons, List.length_append, length_octets, length_reportEntries, Vector.length_toList]
    · rw [hb, List.getElem?_cons_zero, reportFlags]
    · rw [hb]
      rfl
    · rw [hb]
      simp [length_octets]
    · have hl : (s.car c).sched.outcomes.entries.toList.length = 32 := by simp
      have hd : 6 + 4 * i.val = 4 * i.val + 4 + 1 + 1 := by ring
      have he := take_drop_flatMap length_reportEntry (s.car c).sched.outcomes.entries.toList [] i.val (by rw [hl]; exact i.isLt)
      rw [List.append_nil] at he
      have hlen : 4 * i.val + 4 = (octets 4 n.toNat).length + 4 * i.val := by rw [length_octets]; ring
      rw [hb, hd, List.drop_succ_cons, List.drop_succ_cons, hlen, List.drop_length_add_append, he,
        reportEntry_eq]
      rfl
  · refine ⟨attention_iff t, rfl, rfl, rfl, rfl, rfl, goodFrame_seal _ _ _ _ _⟩

end Sys2Proof.Machine
end

section
/-! The Alignment Table's commits, reads and rolls, and the output words. -/

namespace Sys2Proof.Machine

open Sys2Proof.Safety

/-! ### COMMIT_ALIGN -/

theorem nextCycleStart_spec (e : EpochNo) : (nextCycleStart e).toNat % 4 = 0 ∧ (nextCycleStart e - e).toNat < 4 ∧
    (4294967292 < e.toNat → nextCycleStart e = 0) := by
  have he := e.isLt
  refine ⟨?_, ?_, fun h => BitVec.eq_of_toNat_eq ?_⟩
  · rw [nextCycleStart, BitVec.toNat_ofNat]
    omega
  · rw [BitVec.toNat_sub, nextCycleStart, BitVec.toNat_ofNat]
    omega
  · rw [nextCycleStart, BitVec.toNat_ofNat]
    show _ = 0
    omega

theorem timingAvailable_iff (s : State) : timingAvailable s = true ↔
    (s.tracker.ref = .locked ∨ s.tracker.ref = .holdover) ∧ ∃ e, s.tracker.epoch = some e := by
  simp [timingAvailable, Option.isSome_iff_exists]

/-- Behind or ahead, by the distance on the 32-bit circle. -/
theorem epochAtOrBehind_false (x y : EpochNo) :
    epochAtOrBehind x y = false ↔ 1 ≤ (x - y).toNat ∧ (x - y).toNat ≤ 2147483647 := by
  have := (x - y).isLt
  simp only [epochAtOrBehind, Bool.or_eq_false_iff, beq_eq_false_iff_ne, decide_eq_false_iff_not]
  omega

/-- A commit is in time: timing is available, its epoch lies ahead, and for the very next epoch the roll does too. -/
def CommitInTime (target : EpochNo) (t : Tracker) : Prop :=
  ∃ e, t.epoch = some e ∧ (t.ref = .locked ∨ t.ref = .holdover) ∧
    (1 ≤ (target - e).toNat ∧ (target - e).toNat ≤ 2147483647) ∧
    (target = e + 1 → ∃ g, t.next = some g ∧ tickReached t.tick (fxTick g.pred - BitVec.ofNat 56 1225001) = false)

theorem commitLate_iff (target : EpochNo) (s : State) : commitLate target s = false ↔ CommitInTime target s.tracker := by
  unfold commitLate CommitInTime
  cases he : s.tracker.epoch with
  | none => simp
  | some e =>
    have ht : timingAvailable s = true ↔ s.tracker.ref = .locked ∨ s.tracker.ref = .holdover := by
      simp [timingAvailable_iff, he]
    cases hn : s.tracker.next with
    | none => simp [ht, epochAtOrBehind_false, and_assoc]
    | some g =>
      have hr : tickReached s.now (rollTick g) = tickReached s.tracker.tick (fxTick g.pred - BitVec.ofNat 56 1225001) := rfl
      simp [ht, epochAtOrBehind_false, hr, and_assoc]

section
variable (body : List Byte) {s : State}

theorem ownerCommitAlign_inTime (h : CommitInTime (nextCycleStart (BitVec.ofNat 32 (field body 0 4))) s.tracker) :
    ownerCommitAlign body s =
      { code := .ok, content := octets 4 (nextCycleStart (BitVec.ofNat 32 (field body 0 4))).toNat
        state := s.setAlign { s.align with
          pending := some { target := nextCycleStart (BitVec.ofNat 32 (field body 0 4))
                            version := BitVec.ofNat 16 (field body 4 2) }
          staged := { s.align.staged with tag := BitVec.ofNat 16 (field body 4 2) } } } :=
  if_neg (by rw [(commitLate_iff _ _).2 h]; nofun)

theorem ownerCommitAlign_late (h : ¬ CommitInTime (nextCycleStart (BitVec.ofNat 32 (field body 0 4))) s.tracker) :
    ownerCommitAlign body s =
      { code := .lateCommit, content := octets 4 (nextCycleStart (BitVec.ofNat 32 (field body 0 4))).toNat
        state := s.setAlign { s.align with
          pending := none, staged := { s.align.staged with tag := s.align.active.tag } } } :=
  if_pos (by rw [← Bool.not_eq_false, commitLate_iff]; exact h)

end

/-- Settles O28: the start epoch by arithmetic, the commit by whether it is in time. -/
theorem commitAlignJudged : Obligations.CommitAlignJudged := by
  unfold Obligations.CommitAlignJudged
  refine ⟨nextCycleStart_spec, fun f s h hl => ?_⟩
  have hexec {a : Answer} (ha : ownerCommitAlign f.body (requested 0x29 f s) = a) :
      exec (.commitAlign f) s = .next (replied 0x29 f (replyOctet a.code) a.content a.state) :=
    congrArg Host.Outcome.next (takeRequest_owner h hl ownerCommitAlign ha)
  have ht : (requested 0x29 f s).tracker = s.tracker := (requested_keeps _ _ _).1
  have ha : (requested 0x29 f s).align = s.align := (requested_keeps _ _ _).2.1
  refine ⟨fun hin => ?_, fun hout => ?_⟩
  · rw [← ha]
    exact hexec (ownerCommitAlign_inTime f.body (ht ▸ hin))
  · rw [← ha]
    exact hexec (ownerCommitAlign_late f.body (ht ▸ hout))

/-! ### READ_ALIGN -/

theorem length_rowOctets (r : GroupRow) : (rowOctets r).length = 5 := by
  simp [rowOctets, boolOctet, signedOctets, length_octets]

theorem length_rows (l : List GroupRow) : (l.flatMap rowOctets).length = 5 * l.length := by
  simp only [List.length_flatMap, length_rowOctets, List.map_const', List.sum_replicate, smul_eq_mul, Nat.mul_comm]

theorem length_switchOctets (p : Option PendingSwitch) : (switchOctets p).length = 7 := by
  cases p <;> simp [switchOctets, length_octets]

/-- The rows a read names. -/
def namedRows (r : CarrierRecord) (first count : Nat) : List GroupRow := (r.rows.toList.drop first).take count

theorem length_namedRows {r : CarrierRecord} {first count : Nat} (h : first + count ≤ 16) :
    (namedRows r first count).length = count := by
  simp only [namedRows, List.length_take, List.length_drop, Vector.length_toList]
  omega

theorem namedRows_getElem {r : CarrierRecord} {first count i : Nat} {j : Fin 16} (hj : j.val = first + i)
    (hi : i < (namedRows r first count).length) : (namedRows r first count)[i] = r.rows.get j := by
  simp [namedRows, Vector.get, hj]

/-- The content of a READ_ALIGN reply. -/
def readContent (b : Bank) (p : Option PendingSwitch) (c : Carrier) (first count : Nat) : List Byte :=
  octets 2 (b.records.get c).gain.toNat ++ signedOctets 2 (b.records.get c).centre ++
    (namedRows (b.records.get c) first count).flatMap rowOctets ++ octets 2 b.tag.toNat ++ switchOctets p

theorem ownerReadAlign_inRange {body : List Byte} {s : State} {b : Bank} {c : Carrier}
    (hb : bankOf (field body 0 1) s.align = some b) (hc : carrierOf (field body 1 1) = some c) (h1 : 1 ≤ field body 3 1)
    (h16 : field body 2 1 + field body 3 1 ≤ 16) : ownerReadAlign body s =
      { code := .ok, content := readContent b s.align.pending c (field body 2 1) (field body 3 1), state := s } := by
  have hif : (1 ≤ field body 3 1 && field body 3 1 ≤ 16 && field body 2 1 ≤ 15 && field body 2 1 + field body 3 1 ≤ 16) = true := by
    simp only [Bool.and_eq_true, decide_eq_true_eq]
    omega
  unfold ownerReadAlign
  dsimp only
  rw [hb, hc]
  exact if_pos hif

theorem bankOf_none {n : Nat} (h : 1 < n) (a : Align) : bankOf n a = none := by
  unfold bankOf
  split
  · omega
  · omega
  · rfl

theorem ownerReadAlign_outOfRange {body : List Byte} {s : State}
    (h : 1 < field body 0 1 ∨ carrierOf (field body 1 1) = none ∨ field body 3 1 = 0 ∨ 16 < field body 2 1 + field body 3 1) :
    ownerReadAlign body s = Answer.refuse .badArgument s := by
  unfold ownerReadAlign
  dsimp only
  split
  · next b c hb hc =>
    have h : field body 3 1 = 0 ∨ 16 < field body 2 1 + field body 3 1 := by
      rcases h with h | h | h
      · rw [bankOf_none h] at hb
        cases hb
      · rw [h] at hc
        cases hc
      · exact h
    refine if_neg fun hif => ?_
    simp only [Bool.and_eq_true, decide_eq_true_eq] at hif
    omega
  · rfl

theorem readContent_row (b : Bank) (p : Option PendingSwitch) (c : Carrier) {first count i : Nat} (h : first + count ≤ 16)
    (hi : i < count) {j : Fin 16} (hj : j.val = first + i) :
    ((readContent b p c first count).drop (4 + 5 * i)).take 5 = rowOctets ((b.records.get c).rows.get j) := by
  have hl : i < (namedRows (b.records.get c) first count).length := by rwa [length_namedRows h]
  have hr := take_drop_flatMap length_rowOctets (namedRows (b.records.get c) first count)
    (octets 2 b.tag.toNat ++ switchOctets p) i hl
  have h4 : 4 + 5 * i = (octets 2 (b.records.get c).gain.toNat ++ signedOctets 2 (b.records.get c).centre).length + 5 * i := by
    simp [signedOctets, length_octets]
  rw [readContent, List.append_assoc, List.append_assoc (_ ++ _), h4, List.drop_length_add_append, hr, namedRows_getElem hj]

theorem readContent_tail (b : Bank) (p : Option PendingSwitch) (c : Carrier) {first count : Nat} (h : first + count ≤ 16) :
    (readContent b p c first count).drop (4 + 5 * count) = octets 2 b.tag.toNat ++ switchOctets p := by
  have h4 : 4 + 5 * count = (octets 2 (b.records.get c).gain.toNat ++ signedOctets 2 (b.records.get c).centre ++
      (namedRows (b.records.get c) first count).flatMap rowOctets).length := by
    simp only [List.length_append, signedOctets, length_octets, length_rows, length_namedRows h]
  rw [readContent, List.append_assoc, h4, List.drop_left]

/-- Settles O29: the content by its parts, a refusal by the first argument out of range. -/
theorem readAlignAnswered : Obligations.ReadAlignAnswered := by
  unfold Obligations.ReadAlignAnswered
  intro f s h hl
  have hexec {a : Answer} (ha : ownerReadAlign f.body (requested 0x2A f s) = a) :
      exec (.readAlign f) s = .next (replied 0x2A f (replyOctet a.code) a.content a.state) :=
    congrArg Host.Outcome.next (takeRequest_owner h hl ownerReadAlign ha)
  refine ⟨fun c hb hc h1 h16 => ?_, fun hout => hexec (ownerReadAlign_outOfRange hout)⟩
  have ha : (requested 0x2A f s).align = s.align := (requested_keeps _ _ _).2.1
  have hbank : bankOf (field f.body 0 1) (requested 0x2A f s).align =
      some (if field f.body 0 1 = 0 then s.align.active else s.align.staged) := by
    rw [ha]
    have : field f.body 0 1 = 0 ∨ field f.body 0 1 = 1 := by omega
    rcases this with h | h <;> simp [h, bankOf]
  refine ⟨_, hexec (ownerReadAlign_inRange hbank hc h1 h16), ?_, rfl, fun i hi j hj => readContent_row _ _ _ h16 hi hj, ?_⟩
  · simp only [readContent, List.length_append, signedOctets, length_octets, length_rows, length_namedRows h16,
      length_switchOctets]
    ring
  · rw [readContent_tail _ _ _ h16, ha]
    cases s.align.pending <;> rfl

/-! ### The table roll -/

/-- A roll at its tick: the delays are taken, and the banks switched where a switch is due. -/
def rolledDelays (s : State) : Align :=
  { s.align with delays := s.align.delays.map fun _ d => takeDelay d, lastRoll := some s.now }

theorem tableRoll_at {s : State} {e : EpochNo} {g : Grid} (href : s.tracker.ref = .locked ∨ s.tracker.ref = .holdover)
    (he : s.tracker.epoch = some e) (hg : s.tracker.next = some g) (h4 : (e + 1).toNat % 4 = 0)
    (ht : s.tracker.tick = fxTick g.pred - BitVec.ofNat 56 1225001) (hr : s.align.lastRoll ≠ some s.tracker.tick) :
    tableRoll s = if switchDue (e + 1) s.align then refreshWords (s.setAlign (switchBanks (rolledDelays s)))
      else s.setAlign (rolledDelays s) := by
  have hroll : rollEpoch s = some (e + 1) := by
    unfold rollEpoch
    rw [he, hg]
    refine if_pos ?_
    have ht' : s.now = rollTick g := ht
    have hr' : s.align.lastRoll ≠ some s.now := hr
    have hs : startsCycle (e + 1) = true := by rw [startsCycle, h4]; rfl
    rw [← ht']
    simp only [Bool.and_eq_true, timingAvailable_iff, he, href, hs, decide_eq_true_eq]
    exact ⟨⟨⟨⟨trivial, e, rfl⟩, trivial⟩, trivial⟩, hr'⟩
  unfold tableRoll
  rw [hroll]
  rfl

theorem takeDelay_eq (d : PathDelay) : takeDelay d = { value := d.pending.getD d.value, pending := none } := by
  obtain ⟨v, p⟩ := d
  cases p <;> rfl

theorem switchDue_iff (first : EpochNo) {a : Align} {p : PendingSwitch} (h : a.pending = some p) :
    switchDue first a = false ↔ 1 ≤ (p.target - first).toNat ∧ (p.target - first).toNat ≤ 2147483647 := by
  unfold switchDue
  rw [h]
  exact epochAtOrBehind_false _ _

theorem refreshWords_same (s : State) (c : Carrier) : (refreshWords s).car c =
    { s.car c with word := if keyLine (s.car c).key then (s.car c).word else restWord c s } := by
  have h : (refreshWords s).car c = if keyLine (s.car c).key then s.car c else { s.car c with word := restWord c s } :=
    Quad.get_map _ _ _
  rw [h]
  cases keyLine (s.car c).key <;> rfl

theorem switchBanks_pending {a : Align} {p : PendingSwitch} (h : a.pending = some p) : switchBanks a =
    { a with active := { a.staged with tag := p.version }, staged := { a.staged with tag := p.version }, pending := none } := by
  simp only [switchBanks, h]

theorem switchBanks_delays (a : Align) : (switchBanks a).delays = a.delays ∧ (switchBanks a).lastRoll = a.lastRoll := by
  unfold switchBanks
  split <;> exact ⟨rfl, rfl⟩

/-- Settles O30, by whether a switch is due. -/
theorem tableRollTaken : Obligations.TableRollTaken := by
  unfold Obligations.TableRollTaken
  intro s e g href he hg h4 ht hr
  refine ⟨_, congrArg Host.Outcome.next (tableRoll_at href he hg h4 ht hr), ?_⟩
  have hd (c : Carrier) : (rolledDelays s).delays.get c =
      { value := (s.align.delays.get c).pending.getD (s.align.delays.get c).value, pending := none } := by
    rw [rolledDelays, Quad.get_map, takeDelay_eq]
  cases hdue : switchDue (e + 1) s.align with
  | false =>
    refine ⟨rfl, rfl, hd, fun p hp hp' => ?_, fun _ => ⟨rfl, rfl, rfl, rfl⟩⟩
    have := (switchDue_iff _ hp).1 hdue
    rcases hp' with hp' | hp'
    · rw [hp'] at this
      simp at this
    · omega
  | true =>
    refine ⟨rfl, (switchBanks_delays _).2, fun c => ?_, fun p hp _ => ?_, fun hahead => ?_⟩
    · exact (congrArg (Quad.get · c) (switchBanks_delays (rolledDelays s)).1).trans (hd c)
    · have hp' : (rolledDelays s).pending = some p := hp
      rw [if_pos rfl, switchBanks_pending hp']
      refine ⟨rfl, rfl, rfl, fun c => ?_⟩
      rw [refreshWords_same]
      rfl
    · cases hp : s.align.pending with
      | none => simp [switchDue, hp] at hdue
      | some p =>
        rw [(switchDue_iff _ hp).2 (hahead p hp)] at hdue
        cases hdue

/-! ### Output words -/

/-- Rounding to the nearest, halves away from zero. -/
theorem roundAway_bounds (n : Int) {d : Nat} (hd : 0 < d) :
    2 * (d * roundAway n d - n) ≤ d ∧ -d ≤ 2 * (d * roundAway n d - n) ∧
    (2 * (d * roundAway n d - n) = d → 0 < n) ∧ (2 * (d * roundAway n d - n) = -d → n < 0) := by
  have natural (m : Nat) : 2 * ((d : Int) * roundAway m d - m) ≤ d ∧ -d < 2 * ((d : Int) * roundAway m d - m) ∧
      (2 * ((d : Int) * roundAway m d - m) = d → 0 < m) := by
    obtain ⟨h1, h2⟩ := roundUp_bracket m hd
    rw [roundAway_natCast m hd]
    have h1 : 2 * ((d : Int) * roundUp m d) ≤ 2 * m + d := by exact_mod_cast (by linarith : 2 * (d * roundUp m d) ≤ 2 * m + d)
    have h2 : 2 * (m : Int) < 2 * (d * roundUp m d) + d := by exact_mod_cast (by linarith : 2 * m < 2 * (d * roundUp m d) + d)
    refine ⟨by linarith, by linarith, fun h => Nat.pos_of_ne_zero fun h0 => ?_⟩
    subst h0
    have : roundUp 0 d = 0 := Nat.div_eq_of_lt (by omega)
    simp [this] at h
    omega
  obtain ⟨m, rfl | rfl⟩ := Int.eq_nat_or_neg n
  · obtain ⟨h1, h2, h3⟩ := natural m
    exact ⟨h1, h2.le, fun h => by exact_mod_cast h3 h, fun h => absurd h (by omega)⟩
  · obtain ⟨h1, h2, h3⟩ := natural m
    rw [roundAway_neg]
    have hn : (d : Int) * -roundAway m d - -(m : Int) = -(d * roundAway m d - m) := by ring
    rw [hn]
    refine ⟨by linarith, by linarith, fun h => absurd h (by linarith), fun h => ?_⟩
    have := h3 (by linarith)
    omega

/-- Settles O37: the word by rounding to the nearest, the centre word by rounding 0. -/
theorem outputWord : Obligations.OutputWord := by
  unfold Obligations.OutputWord
  have hword (w : WordSet) (v : Int) : wordOf w v = max (-32768) (min 32767 (roundAway (v * w.gain.toNat) 8 + w.centre)) :=
    clampInt_eq_max_min (by decide) _
  have hcentre (w : WordSet) (h1 : -16384 ≤ w.centre) (h2 : w.centre ≤ 16383) (v : Int) (hv : v * w.gain.toNat = 0) :
      wordOf w v = w.centre := by
    have h0 : roundAway 0 8 = 0 := rfl
    rw [hword, hv, h0]
    omega
  refine ⟨fun w v _ _ => ⟨roundAway (v * w.gain.toNat) 8, hword w v, ?_⟩, fun w h1 h2 => ⟨?_, fun hg v => ?_⟩,
    fun c sl g rate content s => rfl⟩
  · obtain ⟨h1, h2, h3, h4⟩ := roundAway_bounds (v * w.gain.toNat) (show 0 < 8 by decide)
    have hg : (0 : Int) ≤ w.gain.toNat := Int.natCast_nonneg _
    exact ⟨h1, h2, fun h => pos_of_mul_pos_left (h3 h) hg, fun h => neg_of_mul_neg_left (h4 h) hg⟩
  · exact hcentre w h1 h2 0 (zero_mul _)
  · exact hcentre w h1 h2 v (by simp [hg])

end Sys2Proof.Machine
end

section
/-! Key-up, tail and wake expiry, the Carrier Monitor, and STANDBY. -/

namespace Sys2Proof.Machine

open Sys2Proof.Safety

/-! ### Key-up, tail, wake -/

section
variable {c : Carrier} {s : State}

theorem keyUp_due {r : Run} (h : (s.car c).key = .pending s.tracker.tick) (hr : (s.car c).timer.active = some r) :
    keyUp c s = s.setCar c (openPeriod r (s.car c)) := by
  refine (if_pos h).trans (congrArg (s.setCar c) ?_)
  dsimp only
  rw [hr]

theorem dropKey_eq (c : Carrier) (s : State) : dropKey c s = s.setCar c { s.car c with
    key := .released, word := centreWord (activeWords c s)
    monitor := { (s.car c).monitor with presence := presenceAtRelease s.tracker.tick (s.car c) } } := rfl

theorem presenceAtRelease_asserted {now : Tick} {k : CarrierState} (h : keyLine k.key = true) :
    presenceAtRelease now k = if k.monitor.rfSense = true then some now else none := if_pos h

theorem tailExpiry_due (h : (s.car c).key = .tail s.tracker.tick) : tailExpiry c s = dropKey c s := if_pos h

theorem wakeExpiry_due (h : (s.car c).power = .awakening s.tracker.tick) :
    wakeExpiry c s = s.setCar c { s.car c with power := .active } := if_pos h

theorem stuckCarrier_due {x : Tick} (h : (s.car c).monitor.presence = some x)
    (ht : s.tracker.tick = x + BitVec.ofNat 56 1000000) (hk : keyLine (s.car c).key = false) :
    stuckCarrier c s = latch (.stuckCarrier c) (s.modCar c fun k => { k with monitor := { k.monitor with presence := some s.now } }) := by
  unfold stuckCarrier
  rw [h]
  have hn : s.now = tickAdd x Config.stuckTicks := ht
  refine if_pos ?_
  rw [hk, ← hn]
  simp

end

/-! ### A change of RF_SENSE -/

/-- What a QUIET check makes of a change of the line. -/
def seenProbe (c : Carrier) (present : Bool) (now : Tick) (p : Probe) : Probe :=
  if present = true ∧ p.phase = .observe ∧ p.carrier = c ∧ p.firstRf = none then { p with firstRf := some now }
  else if present = true then { p with result := p.result.map (failLate now c) }
  else p

theorem seeRf_eq (c : Carrier) (present : Bool) (s : State) :
    seeRf c present s = s.setProbe (seenProbe c present s.tracker.tick s.probe) := by
  unfold seeRf seenProbe
  simp only [Bool.and_eq_true, decide_eq_true_eq, and_assoc, Option.isNone_iff_eq_none]
  split
  · rfl
  · split <;> rfl

/-- What a NO_CARRIER check of this very tick makes of the alarm set at a change of the line. -/
def recheckedAlarms (c : Carrier) (present : Bool) (now : Tick) (check : Option CarrierCheck) (alarms : BitVec 32) : BitVec 32 :=
  match check with
  | some q =>
    if q.tick ≠ now then alarms
    else if present = false then alarms ||| (Alarm.noCarrier c).mask
    else if q.wasClear = true then alarms &&& ~~~(Alarm.noCarrier c).mask
    else alarms
  | none => alarms

theorem noCarrier_used (c : Carrier) : (Alarm.noCarrier c).mask &&& usedAlarms = (Alarm.noCarrier c).mask := by
  cases c <;> rfl

theorem State.setMgmt_same (s : State) : s.setMgmt { s.mgmt with alarms := s.mgmt.alarms } = s := rfl

theorem recheck_eq (c : Carrier) (present : Bool) (s : State) : recheck c present s = s.setMgmt { s.mgmt with
    alarms := recheckedAlarms c present s.tracker.tick (s.car c).monitor.checked s.mgmt.alarms } := by
  unfold recheck recheckedAlarms
  cases (s.car c).monitor.checked with
  | none => rfl
  | some q =>
    by_cases hq : q.tick = s.tracker.tick
    · cases present <;> cases hw : q.wasClear <;> simp [hq, hw, latch, clearAlarmSet, noCarrier_used, State.now, State.setMgmt_same]
    · simp [hq, State.now, State.setMgmt_same]

theorem sampleChange_eq (now : Tick) (present : Bool) (k : CarrierState) : sampleChange now present k =
    { k with monitor := { k.monitor with
      rfSense := present
      presence := if present = true ∧ keyLine k.key = false then some (k.monitor.presence.getD now) else none } } := by
  simp [sampleChange]

theorem rfSenseChange_unsampled {c : Carrier} {s : State} (h : s.tracker.ref = .noClock ∨ s.firstEdge = true) (p : Bool) :
    rfSenseChange c p s = s.setCar c { s.car c with monitor := { (s.car c).monitor with rfPin := p } } :=
  if_pos (by simpa using h)

theorem rfSenseChange_sampled {c : Carrier} {s : State} (h1 : s.tracker.ref ≠ .noClock) (h2 : s.firstEdge = false) (p : Bool) :
    rfSenseChange c p s = ((s.setCar c { s.car c with monitor := { (s.car c).monitor with
        rfPin := p, rfSense := p
        presence := if p = true ∧ keyLine (s.car c).key = false then some ((s.car c).monitor.presence.getD s.tracker.tick)
          else none } }).setProbe (seenProbe c p s.tracker.tick s.probe)).setMgmt
      { s.mgmt with alarms := recheckedAlarms c p s.tracker.tick (s.car c).monitor.checked s.mgmt.alarms } := by
  unfold rfSenseChange
  dsimp only
  rw [if_neg (by simp [h1, h2]), seeRf_eq, recheck_eq]
  simp [State.modCar, sampleChange_eq, State.now]

/-- Settles O48, timer by timer. -/
theorem keyAndMonitorTimers : Obligations.KeyAndMonitorTimers := by
  unfold Obligations.KeyAndMonitorTimers
  refine ⟨fun c s => ⟨fun r h hr => ?_, fun h => ?_, fun h => ?_⟩, fun c s => ⟨fun p h1 h2 => ?_, fun p h => ?_, fun x h ht hk => ?_⟩⟩
  · exact congrArg Host.Outcome.next (keyUp_due h hr)
  · refine congrArg Host.Outcome.next ((tailExpiry_due h).trans ?_)
    rw [dropKey_eq, presenceAtRelease_asserted (by rw [h]; rfl)]
  · exact congrArg Host.Outcome.next (wakeExpiry_due h)
  · refine congrArg Host.Outcome.next ((rfSenseChange_sampled h1 h2 p).trans ?_)
    have hf : (fun r : ProbeRecord => if r.carrier = c ∧ r.outcome = .pass ∧ r.endTick = some s.tracker.tick then
        { r with outcome := .fail, firstRf := some s.tracker.tick } else r) = failLate s.tracker.tick c := by
      funext r
      simp only [failLate, Bool.and_eq_true, decide_eq_true_eq, and_assoc]
    dsimp only
    rw [hf]
    cases (s.car c).monitor.presence <;> rfl
  · exact congrArg Host.Outcome.next (rfSenseChange_unsampled h p)
  · exact congrArg Host.Outcome.next (stuckCarrier_due h ht hk)

/-! ### STANDBY -/

/-- The conditions under which a STANDBY is carried out. -/
def StandbyMet (c : Carrier) (s : State) : Prop :=
  (∀ b ∈ s.batches, b.carrier ≠ c) ∧ (s.car c).key = .released ∧ ¬ (s.probe.phase ≠ .idle ∧ s.probe.carrier = c) ∧
    (s.car c).marker = []

theorem standbyAllowed_iff (c : Carrier) (s : State) : standbyAllowed c s = true ↔ StandbyMet c s := by
  simp [standbyAllowed, StandbyMet, hasRecord, probeOn, Probe.busy, and_assoc, not_and_or, -not_and]

section
variable {body : List Byte} {c : Carrier} {s : State}

theorem ownerStandby_met (hc : carrierOf (field body 0 1) = some c) (h : StandbyMet c s) : ownerStandby body s =
    { code := .ok, content := [2], state := s.setCar c { s.car c with power := .standby } } := by
  unfold ownerStandby
  rw [hc]
  exact if_pos ((standbyAllowed_iff c s).2 h)

theorem ownerStandby_unmet (hc : carrierOf (field body 0 1) = some c) (h : ¬ StandbyMet c s) : ownerStandby body s =
    { code := .noopPending, content := octets 1 (powerOctet (s.car c).power), state := s } := by
  unfold ownerStandby
  rw [hc]
  exact if_neg fun hs => h ((standbyAllowed_iff c s).1 hs)

theorem ownerStandby_noCarrier (hc : carrierOf (field body 0 1) = none) : ownerStandby body s =
    { code := .badArgument, content := [Config.standbyPowerOctet (BitVec.ofNat 8 (field body 0 1))], state := s } := by
  unfold ownerStandby
  rw [hc]

end

/-- Settles O50, by the carrier octet and the conditions of the request. -/
theorem standbyJudged : Obligations.StandbyJudged := by
  unfold Obligations.StandbyJudged
  intro f s h hl
  have hexec {a : Answer} (ha : ownerStandby f.body (requested 0x30 f s) = a) :
      exec (.standby f) s = .next (replied 0x30 f (replyOctet a.code) a.content a.state) :=
    congrArg Host.Outcome.next (takeRequest_owner h hl ownerStandby ha)
  have hcar (c : Carrier) : (requested 0x30 f s).car c = s.car c := by simp
  have hmet (c : Carrier) : StandbyMet c (requested 0x30 f s) ↔ StandbyMet c s := by simp [StandbyMet]
  refine ⟨fun c hc => ⟨fun hm => ?_, fun hm => ?_⟩, fun hc => ⟨_, hexec (ownerStandby_noCarrier hc)⟩⟩
  · rw [← hcar]
    exact hexec (ownerStandby_met hc ((hmet c).2 hm))
  · refine (hexec (ownerStandby_unmet hc (mt (hmet c).1 hm))).trans ?_
    dsimp only
    rw [hcar]
    cases (s.car c).power with
    | active => rfl
    | awakening e => rw [powerOctet, octets_one]; rfl
    | standby => rfl

end Sys2Proof.Machine
end

section
/-! The Delay Probe: its requests, its phases, its samples and its end. -/

namespace Sys2Proof.Machine

open Sys2Proof.Safety

/-! ### PROBE_START -/

section
variable {body : List Byte} {c : Carrier} {m : ProbeMode} {s : State}

theorem modeOf_none {n : Nat} : modeOf n = none ↔ 1 < n := by
  unfold modeOf
  split
  · simp
  · simp
  · next h0 h1 => exact iff_of_true rfl (Nat.one_lt_iff_ne_zero_and_ne_one.2 ⟨h0, h1⟩)

theorem ownerProbeStart_outOfRange (h : carrierOf (field body 0 1) = none ∨ 1 < field body 1 1) :
    ownerProbeStart body s = Answer.refuse .badArgument (clearResult s) := by
  unfold ownerProbeStart
  dsimp only
  split
  · next hc hm =>
    rcases h with h | h
    · rw [h] at hc
      cases hc
    · rw [modeOf_none.2 h] at hm
      cases hm
  · rfl

theorem ownerProbeStart_refused (hc : carrierOf (field body 0 1) = some c) (hm : modeOf (field body 1 1) = some m) {code : ReplyCode}
    (hr : probeRefusal c (clearResult s) = some code) : ownerProbeStart body s = Answer.refuse code (clearResult s) := by
  unfold ownerProbeStart
  dsimp only
  rw [hc, hm]
  dsimp only
  rw [hr]

theorem ownerProbeStart_taken (hc : carrierOf (field body 0 1) = some c) (hm : modeOf (field body 1 1) = some m)
    (hr : probeRefusal c (clearResult s) = none) : ownerProbeStart body s =
      { code := .ok, content := BitVec.ofNat 8 (carrierNumber c) :: BitVec.ofNat 8 (modeOctet m) :: octets 7 s.tracker.tick.toNat
        state := startProbe c m (flagSet (field body 2 1)) (clearResult s) } := by
  unfold ownerProbeStart
  dsimp only
  rw [hc, hm]
  dsimp only
  rw [hr, octets_one, octets_one]
  rfl

/-- The checks of PROBE_START on the carrier, in their order. -/
theorem probeRefusal_cases (c : Carrier) (s : State) :
    (s.probe.phase ≠ .idle → probeRefusal c s = some .measureBusy) ∧
    (s.probe.phase = .idle →
      (s.tracker.ref = .noClock ∨ s.tracker.ref = .acquiring → probeRefusal c s = some .noTiming) ∧
      (s.tracker.ref = .locked ∨ s.tracker.ref = .holdover →
        ((s.car c).power ≠ .active → probeRefusal c s = some .carrierStandby) ∧
        ((s.car c).power = .active →
          ((s.car c).key ≠ .released ∨ (s.car c).sched.onAir.isSome = true → probeRefusal c s = some .carrierBusy) ∧
          ((s.car c).key = .released → (s.car c).sched.onAir = none → probeRefusal c s = none)))) := by
  unfold probeRefusal
  refine ⟨fun h => if_pos (by simp [Probe.busy, h]), fun h => ?_⟩
  rw [if_neg (by simp [Probe.busy, h])]
  refine ⟨fun hr => if_pos (by rcases hr with hr | hr <;> simp [hr]), fun hr => ?_⟩
  rw [if_neg (by rcases hr with hr | hr <;> simp [hr])]
  refine ⟨fun hp => if_pos hp, fun hp => ?_⟩
  rw [if_neg (not_not.2 hp)]
  exact ⟨fun hb => if_pos (by simpa [keyBusy] using hb), fun hk ho => if_neg (by simp [keyBusy, hk, ho])⟩

end

/-- Settles O51, along the checks in their order. -/
theorem probeStartJudged : Obligations.ProbeStartJudged := by
  unfold Obligations.ProbeStartJudged
  intro f s h hl
  have hexec {a : Answer} (ha : ownerProbeStart f.body (requested 0x34 f s) = a) :
      exec (.probeStart f) s = .next (replied 0x34 f (replyOctet a.code) a.content a.state) :=
    congrArg Host.Outcome.next (takeRequest_owner h hl ownerProbeStart ha)
  have hprobe : (requested 0x34 f s).probe = s.probe := by simp
  have hclear : clearResult (requested 0x34 f s) =
      (requested 0x34 f s).setProbe { s.probe with result := none, done := false, aborted := false } := by
    rw [← hprobe]
    rfl
  dsimp only
  rw [← hclear]
  refine ⟨fun hout => hexec (ownerProbeStart_outOfRange hout), fun c hc hm => ?_⟩
  obtain ⟨m, hm⟩ : ∃ m, modeOf (field f.body 1 1) = some m :=
    Option.ne_none_iff_exists'.1 fun e => by rw [modeOf_none] at e; omega
  obtain ⟨hbusy, hidle⟩ := probeRefusal_cases c (clearResult (requested 0x34 f s))
  refine ⟨fun hp => hexec (ownerProbeStart_refused hc hm (hbusy hp)), fun hp => ?_⟩
  obtain ⟨htiming, href⟩ := hidle hp
  refine ⟨fun hr => hexec (ownerProbeStart_refused hc hm (htiming hr)), fun hr => ?_⟩
  obtain ⟨hstandby, hactive⟩ := href hr
  have hcar : (requested 0x34 f s).car c = s.car c := by simp
  refine ⟨fun hp => hexec (ownerProbeStart_refused hc hm (hstandby hp)), fun hp => ?_⟩
  obtain ⟨hkey, hfree⟩ := hactive hp
  refine ⟨fun hb => hexec (ownerProbeStart_refused hc hm (hkey hb)), fun hk ho => ?_⟩
  have htaken := hexec (ownerProbeStart_taken hc hm (hfree hk ho))
  refine ⟨fun h0 => ?_, fun h1 => ?_⟩
  · rw [h0] at hm
    injection hm with hm
    subst hm
    rw [h0]
    exact htaken
  · rw [h1] at hm
    injection hm with hm
    subst hm
    rw [h1]
    exact htaken

/-! ### PROBE_ABORT -/

section
variable {s : State}

theorem abortProbe_stays (h : s.probe.phase = .idle ∨ s.probe.aborting = true) : abortProbe s = s :=
  if_pos (by rcases h with h | h <;> simp [Probe.busy, h])

theorem abortProbe_loadReturn (h : s.probe.phase = .loadReturn) (ha : s.probe.aborting = false) :
    abortProbe s = s.setProbe { s.probe with aborting := true, abortPhase := .loadReturn } := by
  simp [abortProbe, Probe.busy, h, ha]

theorem abortProbe_observe (h : s.probe.phase = .observe) (ha : s.probe.aborting = false) :
    abortProbe s = endProbe (abortedRecord s.probe .observe) s := by
  simp [abortProbe, Probe.busy, h, ha]

/-- The phases of a PATH probe before LOAD_RETURN. -/
def PathPhase (p : ProbePhase) : Prop := p = .loadSettle ∨ p = .keyUp ∨ p = .probe ∨ p = .keyDown

theorem abortProbe_path (h : PathPhase s.probe.phase) (ha : s.probe.aborting = false) :
    abortProbe s = (returnKey s).setProbe { (returnKey s).probe with
      phase := .loadReturn, phaseEnd := some (s.tracker.tick + BitVec.ofNat 56 200000)
      aborting := true, abortPhase := s.probe.phase } := by
  rcases h with h | h | h | h <;> simp [abortProbe, Probe.busy, h, ha] <;> rfl

/-- The key returned: the carrier's key dropped where the probe holds it. -/
theorem returnKey_eq (s : State) : returnKey s = s.setCar s.probe.carrier
    (if (s.car s.probe.carrier).key = .probe then { s.car s.probe.carrier with
      key := .released, word := centreWord (activeWords s.probe.carrier s)
      monitor := { (s.car s.probe.carrier).monitor with
        presence := if (s.car s.probe.carrier).monitor.rfSense = true then some s.tracker.tick else none } }
    else s.car s.probe.carrier) := by
  unfold returnKey
  split
  · next h => rw [dropKey_eq, presenceAtRelease_asserted (by rw [h]; rfl)]
  · rw [State.setCar_self]

/-- A probe that ends where no RESTART came before leaves its record and one flag. -/
theorem endProbe_result (h : s.probe.noResult = false) (r : ProbeRecord) : endProbe r s = s.setProbe { s.probe with
    phase := .idle, phaseEnd := none, aborting := false, result := some r, done := r.outcome ≠ .aborted
    aborted := r.outcome = .aborted } := by
  unfold endProbe
  rw [h]
  rfl

theorem endProbe_noResult (h : s.probe.noResult = true) (r : ProbeRecord) :
    endProbe r s = s.setProbe { s.probe with phase := .idle, phaseEnd := none, aborting := false } := by
  unfold endProbe
  rw [h]
  rfl

theorem ownerProbeAbort_idle (body : List Byte) (h : s.probe.phase = .idle) :
    ownerProbeAbort body s = Answer.refuse .refusedState s := if_neg (by simp [Probe.busy, h])

theorem ownerProbeAbort_busy (body : List Byte) (h : s.probe.phase ≠ .idle) :
    ownerProbeAbort body s = { code := .ok, content := [], state := abortProbe s } := if_pos (by simp [Probe.busy, h])

end

/-! ### PROBE_RESULT -/

theorem length_sampleOctets (l : List Sample) : (l.flatMap fun x => octets 2 (sampleNumber x)).length = 2 * l.length := by
  simp [List.length_flatMap, length_octets, Nat.mul_comm]

theorem length_optOctets (len : Nat) (x : Option Nat) : (optOctets len x).length = len + 1 := by
  cases x <;> simp [optOctets, length_octets]

section
variable {carrier mode phase outcome : Nat} {samples : List Sample} {delays : Nat} {mean spread smallest largest : Option Nat}
  {adopt : Nat} {firstRf : Option Tick}

theorem length_recordOctets (h : samples.length = 16) :
    (recordOctets carrier mode phase outcome samples delays mean spread smallest largest adopt firstRf).length = 57 := by
  simp only [recordOctets, List.length_append, length_octets, length_sampleOctets, length_optOctets, h]

theorem recordOctets_opening :
    (recordOctets carrier mode phase outcome samples delays mean spread smallest largest adopt firstRf).take 4 =
      [BitVec.ofNat 8 carrier, BitVec.ofNat 8 mode, BitVec.ofNat 8 phase, BitVec.ofNat 8 outcome] := by
  simp [recordOctets, octets_one]

theorem recordOctets_samples (h : samples.length = 16) :
    ((recordOctets carrier mode phase outcome samples delays mean spread smallest largest adopt firstRf).drop 4).take 33 =
      samples.flatMap (fun x => octets 2 (sampleNumber x)) ++ octets 1 delays := by
  have hl : (samples.flatMap (fun x => octets 2 (sampleNumber x)) ++ octets 1 delays).length = 33 := by
    simp only [List.length_append, length_octets, length_sampleOctets, h]
  have hs : recordOctets carrier mode phase outcome samples delays mean spread smallest largest adopt firstRf =
      [BitVec.ofNat 8 carrier, BitVec.ofNat 8 mode, BitVec.ofNat 8 phase, BitVec.ofNat 8 outcome] ++
        ((samples.flatMap (fun x => octets 2 (sampleNumber x)) ++ octets 1 delays) ++ (optOctets 4 mean ++
          octets 2 (spread.getD 0) ++ octets 2 (smallest.getD 0) ++ octets 2 (largest.getD 0) ++ octets 1 adopt ++
          optOctets 7 (firstRf.map BitVec.toNat))) := by
    simp only [recordOctets, octets_one, List.append_assoc, List.cons_append, List.nil_append]
  rw [hs]
  exact List.take_left' hl

end

theorem probeContent_running {p : Probe} (h : p.phase ≠ .idle) : probeContent p = octets 1 (probeFlags p) ++
    recordOctets (carrierNumber p.carrier) (modeOctet p.mode) (phaseOctet p.phase) 0 p.samples 0 none none none none 0 none := by
  unfold probeContent
  rw [if_pos (by simp [Probe.busy, h])]

theorem probeContent_held {p : Probe} {r : ProbeRecord} (h : p.phase = .idle) (hr : p.result = some r) :
    probeContent p = octets 1 (probeFlags p) ++
      recordOctets (carrierNumber r.carrier) (modeOctet r.mode) (phaseOctet r.abortPhase) (probeOutcomeOctet r.outcome)
        r.samples r.delays r.mean r.spread r.smallest r.largest
        ((if r.adopt then 1 else 0) + (if r.adopted then 2 else 0)) r.firstRf := by
  unfold probeContent
  rw [if_neg (by simp [Probe.busy, h]), hr]

theorem length_probeContent {p : Probe} (h : p.samples.length = 16) (hr : ∀ r, p.result = some r → r.samples.length = 16) :
    (probeContent p).length = 58 := by
  unfold probeContent
  rw [List.length_append, length_octets]
  split
  · rw [length_recordOctets h]
  · split
    · next r hs => rw [length_recordOctets (hr r hs)]
    · rw [length_recordOctets rfl]

theorem probeFlags_running {p : Probe} (h : p.phase ≠ .idle) : probeFlags p =
    1 + (if p.done then 2 else 0) + (if p.aborted then 4 else 0) + (if p.aborting then 8 else 0) := by
  simp [probeFlags, Probe.busy, h]

theorem probeFlags_idle {p : Probe} (h : p.phase = .idle) : probeFlags p =
    (if p.done then 2 else 0) + (if p.aborted then 4 else 0) := by
  simp [probeFlags, Probe.busy, h]

/-- Settles O52: the abort by phase, the result by what it opens with. -/
theorem probeAbortAndResult : Obligations.ProbeAbortAndResult := by
  unfold Obligations.ProbeAbortAndResult
  refine ⟨fun f s h => ?_, fun f s h hl hr => ?_⟩
  · have hexec {a : Answer} (ha : ownerProbeAbort f.body (requested 0x35 f s) = a) :
        exec (.probeAbort f) s = .next (replied 0x35 f (replyOctet a.code) a.content a.state) :=
      congrArg Host.Outcome.next (takeRequest_owner h (Nat.zero_le _) ownerProbeAbort ha)
    have hbusy {t : State} (hp : s.probe.phase ≠ .idle) (ha : abortProbe (requested 0x35 f s) = t) :
        exec (.probeAbort f) s = .next (replied 0x35 f 0x00 [] t) :=
      ha ▸ hexec (ownerProbeAbort_busy f.body hp)
    refine ⟨fun hp => hexec (ownerProbeAbort_idle f.body hp), fun hp ha => hbusy hp (abortProbe_stays (.inr ha)),
      fun ha => ⟨fun hp => ?_, fun hp hn => ?_, fun hp => ?_⟩⟩
    · exact hbusy (by rw [hp]; nofun) (abortProbe_loadReturn hp ha)
    · refine ⟨abortedRecord s.probe .observe, rfl, rfl, rfl, rfl, rfl, rfl, ?_⟩
      exact hbusy (by rw [hp]; nofun) ((abortProbe_observe (s := requested 0x35 f s) hp ha).trans
        (endProbe_result (s := requested 0x35 f s) hn _))
    · refine hbusy (by rcases hp with h | h | h | h <;> rw [h] <;> nofun)
        ((abortProbe_path (s := requested 0x35 f s) hp ha).trans ?_)
      rw [returnKey_eq]
      rfl
  · have hp : (requested 0x36 f s).probe = s.probe := by simp
    refine ⟨probeContent s.probe, length_probeContent hl hr, ?_, fun hp => ?_, fun r hp hs => ⟨?_, ?_⟩⟩
    · refine (congrArg Host.Outcome.next (takeRequest_owner h (Nat.zero_le _) ownerProbeResult rfl)).trans ?_
      have hif : (if (s.probe.done || s.probe.aborted) = true then clearResult (requested 0x36 f s) else requested 0x36 f s) =
          if s.probe.done = true ∨ s.probe.aborted = true then
            (requested 0x36 f s).setProbe { s.probe with result := none, done := false, aborted := false }
          else requested 0x36 f s := by
        simp only [Bool.or_eq_true]
        rfl
      rw [← hif]
      rfl
    · rw [probeContent_running hp, octets_one, probeFlags_running hp]
      exact congrArg _ recordOctets_opening
    · rw [probeContent_held hp hs, octets_one, probeFlags_idle hp]
      exact congrArg _ recordOctets_opening
    · rw [probeContent_held hp hs, octets_one, List.singleton_append, List.drop_succ_cons]
      exact recordOctets_samples (hr r hs)

/-! ### The timed phases -/

section
variable {s : State}

theorem phaseDue_iff (p : ProbePhase) : phaseDue p s = true ↔ s.probe.phase = p ∧ s.probe.phaseEnd = some s.tracker.tick := by
  unfold phaseDue
  rw [Bool.and_eq_true, decide_eq_true_iff, decide_eq_true_iff]
  rfl

/-- The counters of the probe's carrier after a word of level `v` of the word set `w`. -/
def drivenCounters (w : WordSet) (v : Int) (k : CarrierCounters) : CarrierCounters :=
  { k with clampedWords := if wordClamped w v = true then satInc k.clampedWords else k.clampedWords }

theorem driveProbe_eq (v : Int) (s : State) : driveProbe v s = s.setCar s.probe.carrier { s.car s.probe.carrier with
    word := wordOf s.probe.words v, counters := drivenCounters s.probe.words v (s.car s.probe.carrier).counters } := by
  unfold driveProbe drivenCounters
  dsimp only
  cases wordClamped s.probe.words v
  · rfl
  · simp [countClampedWord, modCounters, State.modCar]

theorem beginProbes_eq (s : State) : beginProbes s = driveProbe 3 (s.setProbe { s.probe with
    phase := .probe, phaseEnd := some (s.tracker.tick + BitVec.ofNat 56 1280000), emitted := 1 }) := rfl

theorem probeLevel_eq (i : Nat) : probeLevel i = if i % 2 = 0 then 3 else -3 := rfl

theorem probeOrigin_eq {p0 : Tick} (h : s.probe.phase = .probe) (he : s.probe.phaseEnd = some (p0 + BitVec.ofNat 56 1280000)) :
    probeOrigin s = some p0 := by
  have hs : tickSub (p0 + BitVec.ofNat 56 1280000) Config.probeTicks = p0 := by
    unfold tickSub
    exact BitVec.add_sub_cancel _ _
  simp only [probeOrigin, h, he, if_true, Option.map_some, hs]

theorem probeEmission_due {p0 : Tick} (h : s.probe.phase = .probe)
    (he : s.probe.phaseEnd = some (p0 + BitVec.ofNat 56 1280000)) (h16 : s.probe.emitted < 16)
    (ht : s.tracker.tick = p0 + BitVec.ofNat 56 (80000 * s.probe.emitted)) : probeEmission s =
      driveProbe (if s.probe.emitted % 2 = 0 then 3 else -3) (s.setProbe { s.probe with emitted := s.probe.emitted + 1 }) := by
  unfold probeEmission
  rw [probeOrigin_eq h he]
  have ht' : s.now = emissionTick p0 s.probe.emitted := ht
  exact if_pos (by simp [h16, ht'])

end

theorem State.setCar_setProbe (s : State) (c : Carrier) (k : CarrierState) (p : Probe) :
    (s.setCar c k).setProbe p = (s.setProbe p).setCar c k := rfl

theorem assessProbe_eq (p : Probe) : assessProbe p = { assess p.samples with
    valid := (assess p.samples).valid && wordOf p.words 3 != wordOf p.words (-3) } := by
  simp only [assessProbe, equalWords, bne, beq_eq_decide]

/-- Settles O53, phase by phase. -/
theorem probePhasesPass : Obligations.ProbePhasesPass := by
  unfold Obligations.ProbePhasesPass
  intro s
  refine ⟨fun hp he hlead => ?_, fun hp he hlead => ?_, fun hp he => ?_, fun p0 hp he h16 ht => ?_, fun hp he hk => ?_,
    fun hp he => ?_⟩
  · refine congrArg Host.Outcome.next ((if_pos ((phaseDue_iff _).2 ⟨hp, he⟩)).trans ((if_neg (by omega)).trans ?_))
    rw [driveProbe_eq]
    simp [State.modCar]
    rfl
  · refine ⟨_, congrArg Host.Outcome.next ((if_pos ((phaseDue_iff _).2 ⟨hp, he⟩)).trans (if_pos hlead)), ?_⟩
    rw [beginProbes_eq, driveProbe_eq, driveProbe_eq]
    refine ⟨by simp [State.modCar, State.setCar_setProbe], fun h3 => ?_, fun h3 => ?_⟩
    · simp [State.modCar, drivenCounters, h3]
    · simp [State.modCar, drivenCounters, h3]
  · refine congrArg Host.Outcome.next ((if_pos ((phaseDue_iff _).2 ⟨hp, he⟩)).trans ?_)
    rw [beginProbes_eq, driveProbe_eq]
    rfl
  · refine congrArg Host.Outcome.next ((probeEmission_due hp he h16 ht).trans ?_)
    rw [driveProbe_eq]
    rfl
  · refine congrArg Host.Outcome.next ((if_pos ((phaseDue_iff _).2 ⟨hp, he⟩)).trans ?_)
    rw [returnKey_eq, if_pos hk]
    rw [assessProbe_eq]
    rfl
  · exact congrArg Host.Outcome.next (if_pos ((phaseDue_iff _).2 ⟨hp, he⟩))

/-! ### Samples -/

section
variable {s : State} {p0 : Tick} {i : Nat}

/-- The ticks since the probe emitted last. -/
def sinceProbe (s : State) (p0 : Tick) (i : Nat) : Nat := (s.tracker.tick - (p0 + BitVec.ofNat 56 (80000 * i))).toNat

/-- A state in which probe `i` was the last one emitted, in a PROBE phase begun at `p0`. -/
structure Emitted (s : State) (p0 : Tick) (i : Nat) : Prop where
  phase : s.probe.phase = .probe
  phaseEnd : s.probe.phaseEnd = some (p0 + BitVec.ofNat 56 1280000)
  emitted : s.probe.emitted = i + 1

theorem Emitted.lastProbe (h : Emitted s p0 i) : lastProbe s = some (i, p0 + BitVec.ofNat 56 (80000 * i)) := by
  unfold Machine.lastProbe
  rw [probeOrigin_eq h.phase h.phaseEnd, h.emitted]
  rfl

theorem getD_of_getElem? {l : List Sample} {x : Sample} (h : l[i]? = some x) : l.getD i .missed = x := by
  simp [List.getD_eq_getElem?_getD, h]

theorem takeSample_inWindow (h : Emitted s p0 i) (h1 : 1 ≤ sinceProbe s p0 i) (h2 : sinceProbe s p0 i ≤ 20000)
    (hx : s.probe.samples[i]? = some .notTaken) : takeSample s = setSample i (.delay (sinceProbe s p0 i)) s := by
  unfold takeSample
  rw [h.lastProbe]
  dsimp only
  rw [getD_of_getElem? hx]
  refine if_pos ?_
  have h1 : 1 ≤ tickSpan s.now (p0 + BitVec.ofNat 56 (80000 * i)) := h1
  have h2 : tickSpan s.now (p0 + BitVec.ofNat 56 (80000 * i)) ≤ Config.edgeWindow := h2
  simp [h1, h2]

theorem takeSample_stands (h : Emitted s p0 i) (hout : sinceProbe s p0 i = 0 ∨ 20000 < sinceProbe s p0 i ∨
    ∃ n, s.probe.samples[i]? = some (.delay n)) : takeSample s = s := by
  unfold takeSample
  rw [h.lastProbe]
  refine if_neg fun hif => ?_
  simp only [Bool.and_eq_true, Bool.or_eq_true, decide_eq_true_eq] at hif
  obtain ⟨⟨h1, h2⟩, hx⟩ := hif
  rcases hout with h0 | h0 | ⟨n, hn⟩
  · have h1 : 1 ≤ sinceProbe s p0 i := h1
    omega
  · have h2 : sinceProbe s p0 i ≤ 20000 := h2
    omega
  · rw [getD_of_getElem? hn] at hx
    simp at hx

theorem edgeWindowClose_due (h : Emitted s p0 i) (hd : sinceProbe s p0 i = 20000) :
    edgeWindowClose s = if s.probe.samples.getD i .missed = .notTaken then setSample i .missed s else s := by
  have ht : s.now = tickAdd (p0 + BitVec.ofNat 56 (80000 * i)) Config.edgeWindow := by
    have hs : s.tracker.tick - (p0 + BitVec.ofNat 56 (80000 * i)) = BitVec.ofNat 56 20000 :=
      BitVec.eq_of_toNat_eq hd
    exact BitVec.sub_eq_iff_eq_add.1 hs |>.trans (BitVec.add_comm _ _)
  unfold edgeWindowClose
  rw [h.lastProbe]
  simp [ht]

theorem modSenseChange_ignored {c : Carrier} (h : s.probe.phase ≠ .probe ∨ s.tracker.ref = .noClock ∨ s.probe.carrier ≠ c) :
    modSenseChange c s = s.setCar c { s.car c with modPin := !(s.car c).modPin } := by
  refine if_neg fun hif => ?_
  simp only [Bool.and_eq_true, decide_eq_true_eq] at hif
  obtain ⟨⟨h1, h2⟩, h3⟩ := hif
  rcases h with h | h | h
  · exact h h2
  · exact h1 h
  · exact h h3

theorem modSenseChange_probe (h : s.probe.phase = .probe) (hr : s.tracker.ref ≠ .noClock) :
    modSenseChange s.probe.carrier s =
      takeSample (s.setCar s.probe.carrier { s.car s.probe.carrier with modPin := !(s.car s.probe.carrier).modPin }) :=
  if_pos (by simp [h, hr])

end

/-! ### The assessment -/

theorem delaysOf_map (ds : List Nat) : delaysOf (ds.map Sample.delay) = ds := by
  simp [delaysOf, List.filterMap_map, Function.comp_def, sampleDelay]

theorem foldl_min_spec (l : List Nat) (a : Nat) : l.foldl min a ∈ a :: l ∧ ∀ x ∈ a :: l, l.foldl min a ≤ x := by
  induction l generalizing a with
  | nil => simp
  | cons b l ih =>
    obtain ⟨hm, hle⟩ := ih (min a b)
    rw [List.foldl_cons]
    refine ⟨?_, fun x hx => ?_⟩
    · rcases List.mem_cons.1 hm with h | h
      · rw [h]
        rcases min_choice a b with h | h <;> simp [h]
      · exact List.mem_cons_of_mem _ (List.mem_cons_of_mem _ h)
    · have hmin := hle (min a b) (by simp)
      rcases List.mem_cons.1 hx with rfl | hx
      · omega
      · rcases List.mem_cons.1 hx with rfl | hx
        · omega
        · exact hle x (List.mem_cons_of_mem _ hx)

theorem foldl_max_spec (l : List Nat) (a : Nat) : l.foldl max a ∈ a :: l ∧ ∀ x ∈ a :: l, x ≤ l.foldl max a := by
  induction l generalizing a with
  | nil => simp
  | cons b l ih =>
    obtain ⟨hm, hle⟩ := ih (max a b)
    rw [List.foldl_cons]
    refine ⟨?_, fun x hx => ?_⟩
    · rcases List.mem_cons.1 hm with h | h
      · rw [h]
        rcases max_choice a b with h | h <;> simp [h]
      · exact List.mem_cons_of_mem _ (List.mem_cons_of_mem _ h)
    · have hmax := hle (max a b) (by simp)
      rcases List.mem_cons.1 hx with rfl | hx
      · omega
      · rcases List.mem_cons.1 hx with rfl | hx
        · omega
        · exact hle x (List.mem_cons_of_mem _ hx)

theorem least_spec {ds : List Nat} (h : ds ≠ []) : least ds ∈ ds ∧ ∀ d ∈ ds, least ds ≤ d := by
  cases ds with
  | nil => exact absurd rfl h
  | cons a l => exact foldl_min_spec l a

theorem greatest_spec {ds : List Nat} (h : ds ≠ []) (hpos : ∀ d ∈ ds, 1 ≤ d) :
    greatest ds ∈ ds ∧ ∀ d ∈ ds, d ≤ greatest ds := by
  obtain ⟨hm, hle⟩ := foldl_max_spec ds 0
  have hle : ∀ d ∈ ds, d ≤ greatest ds := fun d hd => hle d (List.mem_cons_of_mem _ hd)
  refine ⟨(List.mem_cons.1 hm).resolve_left fun h0 => ?_, hle⟩
  obtain ⟨d, hd⟩ := List.exists_mem_of_ne_nil ds h
  have := hle d hd
  have := hpos d hd
  have h0 : greatest ds = 0 := h0
  omega

theorem assess_delays {ds : List Nat} (h : ds.length = 16) : assess (ds.map Sample.delay) =
    { valid := decide (greatest ds - least ds ≤ 20), mean := some (roundUp (ds.sum * 100) 16)
      spread := some (greatest ds - least ds) } := by
  unfold assess
  rw [delaysOf_map, List.length_map]
  exact if_pos (by simp [h])

theorem assess_missed {samples : List Sample} (h : Sample.missed ∈ samples) :
    assess samples = { valid := false, mean := none, spread := none } := by
  have hlt : (delaysOf samples).length < samples.length :=
    List.length_filterMap_lt_length_iff_exists.2 ⟨_, h, rfl⟩
  refine if_neg fun hif => ?_
  simp only [Bool.and_eq_true, decide_eq_true_eq] at hif
  omega

/-- Settles O54: the window by the ticks since the probe emitted last, the assessment by its sum and extremes. -/
theorem probeSampled : Obligations.ProbeSampled := by
  unfold Obligations.ProbeSampled
  refine ⟨fun s p0 i hp he hem hl hi hr => ?_, fun c s h => ?_, fun ds hl hd => ?_, fun samples _ hm => assess_missed hm⟩
  · have hE : Emitted s p0 i := ⟨hp, he, hem⟩
    have hT : Emitted (s.setCar s.probe.carrier { s.car s.probe.carrier with
        modPin := !(s.car s.probe.carrier).modPin }) p0 i := ⟨hp, he, hem⟩
    refine ⟨fun h1 h2 hx => ?_, fun hout => ?_, fun e hne => ?_, fun hd hx => ?_, fun hd hx => ?_⟩
    · exact congrArg Host.Outcome.next ((modSenseChange_probe hp hr).trans (takeSample_inWindow hT h1 h2 hx))
    · exact congrArg Host.Outcome.next ((modSenseChange_probe hp hr).trans (takeSample_stands hT hout))
    · exact congrArg Host.Outcome.next (modSenseChange_ignored (.inr (.inr hne.symm)))
    · exact congrArg Host.Outcome.next ((edgeWindowClose_due hE hd).trans (if_pos (getD_of_getElem? hx)))
    · obtain ⟨n, hn⟩ := hx
      exact congrArg Host.Outcome.next ((edgeWindowClose_due hE hd).trans (if_neg (by rw [getD_of_getElem? hn]; nofun)))
  · exact congrArg Host.Outcome.next (modSenseChange_ignored (h.imp_right .inl))
  · have hne : ds ≠ [] := by
      rintro rfl
      cases hl
    obtain ⟨hlo, hle⟩ := least_spec hne
    obtain ⟨hhi, hge⟩ := greatest_spec hne fun d h => (hd d h).1
    obtain ⟨hu, hlu⟩ := roundUp_bracket (ds.sum * 100) (show 0 < 16 by decide)
    have hsum1 := List.card_nsmul_le_sum ds 1 fun d h => (hd d h).1
    have hsum2 := List.sum_le_card_nsmul ds 20000 fun d h => (hd d h).2
    rw [hl, smul_eq_mul] at hsum1 hsum2
    refine ⟨_, _, _, assess_delays hl, hlo, hhi, fun d h => ⟨hle d h, hge d h⟩, ?_, ?_, ?_, ?_⟩ <;> omega

/-! ### The end of a probe -/

section
variable {s : State}

/-- The state in which LOAD is released. -/
def loadReleased (s : State) : State := s.setCar s.probe.carrier { s.car s.probe.carrier with load := false }

theorem loadReturnEnd_due (h : s.probe.phase = .loadReturn) (he : s.probe.phaseEnd = some s.tracker.tick) :
    loadReturnEnd s = if s.probe.aborting then endProbe (abortedRecord s.probe s.probe.abortPhase) (loadReleased s)
      else endProbe (pathRecord s.probe)
        (if s.probe.noResult then loadReleased s else adoptDelay (pathRecord s.probe) (loadReleased s)) :=
  if_pos ((phaseDue_iff _).2 ⟨h, he⟩)

theorem loadReturnEnd_result (h : s.probe.phase = .loadReturn) (he : s.probe.phaseEnd = some s.tracker.tick)
    (ha : s.probe.aborting = false) (hn : s.probe.noResult = false) :
    loadReturnEnd s = endProbe (pathRecord s.probe) (adoptDelay (pathRecord s.probe) (loadReleased s)) := by
  rw [loadReturnEnd_due h he, ha, hn]
  rfl

theorem loadReturnEnd_noResult (h : s.probe.phase = .loadReturn) (he : s.probe.phaseEnd = some s.tracker.tick)
    (hn : s.probe.noResult = true) : ∃ r, loadReturnEnd s = endProbe r (loadReleased s) := by
  rw [loadReturnEnd_due h he, hn]
  split
  · exact ⟨_, rfl⟩
  · exact ⟨_, rfl⟩

theorem observeEnd_due (h : s.probe.phase = .observe) (he : s.probe.phaseEnd = some s.tracker.tick) :
    observeEnd s = endProbe (quietRecord s.now s.probe) s := if_pos ((phaseDue_iff _).2 ⟨h, he⟩)

theorem adoptDelay_not {r : ProbeRecord} (h : r.mean = none ∨ r.adopted = false) (s : State) : adoptDelay r s = s := by
  unfold adoptDelay
  split
  · next m hm =>
    refine if_neg fun ha => ?_
    rcases h with h | h
    · rw [h] at hm
      cases hm
    · rw [h] at ha
      cases ha
  · rfl

theorem adoptDelay_taken {r : ProbeRecord} {m : Nat} (hm : r.mean = some m) (ha : r.adopted = true) (s : State) :
    adoptDelay r s = s.setAlign { s.align with
      delays := s.align.delays.set r.carrier { s.align.delays.get r.carrier with pending := some m } } := by
  unfold adoptDelay
  rw [hm, ha]
  rfl

end

/-- The record of a probe whose samples have been assessed. -/
theorem pathRecord_assessed {p : Probe} {a : Assessment} (h : p.assessment = some a) :
    (pathRecord p).outcome = (if a.valid = true then .valid else .invalid) ∧ (pathRecord p).mean = a.mean ∧
      (pathRecord p).spread = a.spread ∧ (pathRecord p).adopted = (p.adopt && a.valid) := by
  simp [pathRecord, h]

/-- Settles O55, by the phase that ends and the marks of the probe. -/
theorem probeEnds : Obligations.ProbeEnds := by
  unfold Obligations.ProbeEnds
  intro s he
  refine ⟨fun hp hn ha a has => ?_, fun hp hn ha => ?_, fun hp hn => ?_, fun hn => ⟨fun hp => ?_, fun hp => ?_⟩⟩
  · obtain ⟨ho, hm, hsp, had⟩ := pathRecord_assessed has
    have hna : (pathRecord s.probe).outcome ≠ .aborted := by
      rw [ho]
      split <;> nofun
    have hend {t : State} (ht : adoptDelay (pathRecord s.probe) (loadReleased s) = t) (htn : t.probe.noResult = false) :
        exec .loadReturnEnd s = .next (t.setProbe { t.probe with
          phase := .idle, phaseEnd := none, aborting := false, result := some (pathRecord s.probe), done := true
          aborted := false }) := by
      refine congrArg Host.Outcome.next ((loadReturnEnd_result hp he ha hn).trans ?_)
      rw [ht, endProbe_result htn, decide_eq_true hna, decide_eq_false hna]
    refine ⟨pathRecord s.probe, rfl, rfl, ho, rfl, hm, hsp, rfl, had, ?_⟩
    cases hmean : a.mean with
    | none => exact (hend (adoptDelay_not (.inl (hm.trans hmean)) (loadReleased s)) hn).trans rfl
    | some m =>
      by_cases hav : s.probe.adopt = true ∧ a.valid = true
      · dsimp only
        rw [if_pos hav]
        exact (hend (adoptDelay_taken (hm.trans hmean) (by simp [had, hav]) (loadReleased s)) hn).trans rfl
      · dsimp only
        rw [if_neg hav]
        exact (hend (adoptDelay_not (.inr (by simpa [had] using hav)) (loadReleased s)) hn).trans rfl
  · refine ⟨abortedRecord s.probe s.probe.abortPhase, rfl, rfl, rfl, rfl, rfl, rfl, ?_⟩
    refine congrArg Host.Outcome.next ((loadReturnEnd_due hp he).trans ((if_pos ha).trans ?_))
    exact endProbe_result (s := loadReleased s) hn _
  · have ho : (quietRecord s.now s.probe).outcome = if s.probe.firstRf = none then .pass else .fail := by
      simp only [quietRecord]
      cases s.probe.firstRf <;> rfl
    have hna : (quietRecord s.now s.probe).outcome ≠ .aborted := by
      rw [ho]
      split <;> nofun
    refine ⟨quietRecord s.now s.probe, rfl, rfl, ho, rfl, rfl, rfl, ?_⟩
    refine congrArg Host.Outcome.next ((observeEnd_due hp he).trans ((endProbe_result hn _).trans ?_))
    rw [decide_eq_true hna, decide_eq_false hna]
  · obtain ⟨r, hr⟩ := loadReturnEnd_noResult hp he hn
    exact congrArg Host.Outcome.next (hr.trans (endProbe_noResult (s := loadReleased s) hn r))
  · exact congrArg Host.Outcome.next ((observeEnd_due hp he).trans (endProbe_noResult hn _))

end Sys2Proof.Machine
end

section
/-! STATUS and SCHEDULE. -/

namespace Sys2Proof.Machine

open Sys2Proof.Safety

/-! ### The parts of STATUS -/

theorem length_boolOctet (b : Bool) : (boolOctet b).length = 1 := rfl

theorem length_trackerOctets (t : Tracker) : (trackerOctets t).length = 32 := by
  simp only [trackerOctets, List.length_append, length_octets, length_optOctets]

theorem length_markerOctets (bits : List Bool) : (markerOctets bits).length = 8 := length_octets _ _

theorem length_carrierOctets (s : State) (c : Carrier) : (carrierOctets c s).length = 29 := by
  simp only [carrierOctets, List.length_append, length_octets, length_optOctets, length_boolOctet, signedOctets,
    length_markerOctets]

theorem carrierOctets_opening (c : Carrier) (s : State) : (carrierOctets c s).take 3 =
    [if (s.par c).enabled = true then 1 else 0, BitVec.ofNat 8 (keyOctet (s.car c).key),
      BitVec.ofNat 8 (powerOctet (s.car c).power)] := by
  simp [carrierOctets, octets_one, boolOctet]

theorem trackerOctets_opening (t : Tracker) : (trackerOctets t).take 6 = BitVec.ofNat 8 (refOctet t.ref) ::
    optOctets 4 (t.epoch.map BitVec.toNat) := by
  have hs : trackerOctets t = (octets 1 (refOctet t.ref) ++ optOctets 4 (t.epoch.map BitVec.toNat)) ++ (octets 2 t.h ++
      octets 1 t.history.length ++ optOctets 4 t.sum8 ++ optOctets 7 (t.next.map fun g => (fxTick g.pred).toNat) ++
      octets 1 t.mismatchRun ++ octets 4 t.mismatchOffset.toNat ++ octets 1 (pendingKindOctet t.pending) ++
      octets 4 ((t.pending.map fun p => p.number.toNat).getD 0)) := by simp only [trackerOctets, List.append_assoc]
  rw [hs, List.take_left' (by simp [length_octets, length_optOctets]), octets_one]
  rfl

/-- The octets of STATUS before its tags. -/
def statusHead (s : State) : List Byte :=
  octets 1 (serviceOctet s.mgmt.service) ++ octets 1 (causeOctet s.mgmt.cause) ++ octets 4 s.mgmt.alarms.toNat ++
    octets 4 s.mgmt.params.mask.toNat ++ octets 1 (markerBits s)

theorem statusHead_opening (s : State) : (statusHead s).take 10 =
    [BitVec.ofNat 8 (serviceOctet s.mgmt.service), BitVec.ofNat 8 (causeOctet s.mgmt.cause)] ++
      octets 4 s.mgmt.alarms.toNat ++ octets 4 s.mgmt.params.mask.toNat := by
  rw [statusHead, octets_one, octets_one]
  exact List.take_left' (by simp [length_octets])

/-- The octets of STATUS from its tags to the carriers. -/
def statusMiddle (s : State) : List Byte :=
  octets 2 s.align.active.tag.toNat ++ octets 2 s.align.staged.tag.toNat ++ switchOctets s.align.pending ++
    octets 2 s.store.freeCount ++ boolOctet s.store.low ++ probeOctets s.probe

theorem length_statusHead (s : State) : (statusHead s).length = 11 := by
  simp only [statusHead, List.length_append, length_octets]

theorem length_statusMiddle (s : State) : (statusMiddle s).length = 18 := by
  simp only [statusMiddle, List.length_append, length_octets, length_switchOctets, length_boolOctet, probeOctets]

theorem statusContent_parts (s : State) : statusContent s = statusHead s ++ (trackerOctets s.tracker ++ (statusMiddle s ++
    [Carrier.c1, .c2, .c3, .c4].flatMap fun c => carrierOctets c s)) := by
  simp only [statusContent, statusHead, statusMiddle, List.append_assoc, List.flatMap_cons, List.flatMap_nil, List.append_nil]

theorem length_statusContent (s : State) : (statusContent s).length = 177 := by
  rw [statusContent_parts]
  simp only [List.length_append, length_statusHead, length_trackerOctets, length_statusMiddle, List.length_flatMap,
    length_carrierOctets, List.map_cons, List.map_nil, List.sum_cons, List.sum_nil]
  rfl

theorem statusContent_carrier (s : State) (c : Carrier) :
    ((statusContent s).drop (61 + 29 * (carrierNumber c - 1))).take 3 = (carrierOctets c s).take 3 := by
  have hi : carrierNumber c - 1 < [Carrier.c1, .c2, .c3, .c4].length := by cases c <;> decide
  have hc : [Carrier.c1, .c2, .c3, .c4][carrierNumber c - 1] = c := by cases c <;> rfl
  have hd := take_drop_flatMap (length_carrierOctets s) [Carrier.c1, .c2, .c3, .c4] [] (carrierNumber c - 1) hi
  rw [List.append_nil, hc] at hd
  have hlen : (statusHead s ++ (trackerOctets s.tracker ++ statusMiddle s)).length = 61 := by
    simp only [List.length_append, length_statusHead, length_trackerOctets, length_statusMiddle]
  rw [statusContent_parts, ← List.append_assoc (trackerOctets _), ← List.append_assoc, ← hlen, List.drop_length_add_append,
    ← hd, List.take_take]
  rfl

/-! ### The parts of SCHEDULE -/

theorem length_padGroups (n len : Nat) {gs : List (List Byte)} (h : ∀ g ∈ gs, g.length = len) :
    (padGroups n len gs).length = n * len := by
  have ht : (gs.take n).flatten.length = min n gs.length * len := by
    rw [List.length_flatten, List.map_congr_left fun g hg => h g (List.mem_of_mem_take hg)]
    simp
  rw [padGroups, List.length_append, ht, List.length_replicate, ← Nat.add_mul]
  congr 1
  omega

theorem length_codeOctets (o : Option SlotOutcome) : (codeOctets o).length = 3 := by
  cases o <;> simp [codeOctets, idOctets, length_octets]

theorem length_recordEntry (m : ClaimMaps) (b : Batch) : (recordEntry m b).length = 10 := by
  simp only [recordEntry, List.length_append, length_octets]

theorem length_records (m : ClaimMaps) (bs : List Batch) :
    ((bs.take 10).map (recordEntry m)).flatten.length = 10 * min 10 bs.length := by
  rw [← List.flatMap_def, List.length_flatMap]
  simp only [length_recordEntry, List.map_const', List.sum_replicate, List.length_take, smul_eq_mul, Nat.mul_comm]

theorem length_scheduleContent (c : Carrier) (s : State) : (scheduleContent c s).length =
    140 + 10 * min 10 (s.batches.filter fun b => b.carrier = c).length := by
  have hstack : (padGroups 4 3 ((s.car c).sched.stack.map (stackEntry s))).length = 12 :=
    length_padGroups 4 3 fun g hg => by
      obtain ⟨id, -, rfl⟩ := List.mem_map.1 hg
      simp [stackEntry, length_octets]
  have hopen : (padGroups 2 5 ((s.car c).sched.openSlots.map openEntry)).length = 10 :=
    length_padGroups 2 5 fun g hg => by
      obtain ⟨o, -, rfl⟩ := List.mem_map.1 hg
      simp [openEntry, length_octets, length_codeOctets]
  have hcodes : ((s.car c).sched.outcomes.entries.toList.flatMap codeOctets).length = 96 := by
    simp only [List.length_flatMap, length_codeOctets, List.map_const', List.sum_replicate, Vector.length_toList, smul_eq_mul]
  simp only [scheduleContent, List.length_append, length_octets, idOctets, length_boolOctet, hstack, hopen, length_optOctets,
    hcodes, length_records]

theorem scheduleContent_opening (c : Carrier) (s : State) : (scheduleContent c s).take 4 =
    [BitVec.ofNat 8 (carrierNumber c), BitVec.ofNat 8 (onAirStatus c s)] ++
      octets 2 (((s.car c).sched.onAir.map BitVec.toNat).getD 0) := by
  have hs : ∃ rest, scheduleContent c s =
      (octets 1 (carrierNumber c) ++ octets 1 (onAirStatus c s) ++ idOctets (s.car c).sched.onAir) ++ rest := by
    apply Exists.intro
    simp only [scheduleContent, List.append_assoc]
    rfl
  obtain ⟨rest, hs⟩ := hs
  rw [hs, List.take_left' (by simp [length_octets, idOctets]), octets_one, octets_one]
  rfl

theorem ownerSchedule_carrier {body : List Byte} {c : Carrier} (h : carrierOf (field body 0 1) = some c) (s : State) :
    ownerSchedule body s = { code := .ok, content := scheduleContent c s, state := s } := by
  unfold ownerSchedule
  rw [h]

theorem ownerSchedule_noCarrier {body : List Byte} (h : carrierOf (field body 0 1) = none) (s : State) :
    ownerSchedule body s = Answer.refuse .badArgument s := by
  unfold ownerSchedule
  rw [h]

/-- Settles O59, by the parts of each content and their lengths. -/
theorem statusAndScheduleRead : Obligations.StatusAndScheduleRead := by
  unfold Obligations.StatusAndScheduleRead
  refine fun f s => ⟨fun h => ?_, fun h hl => ⟨fun c hc => ?_, fun hn => ?_⟩⟩
  · refine ⟨statusContent (requested 0x23 f s), congrArg Host.Outcome.next (takeRequest_owner h (Nat.zero_le _) ownerStatus rfl),
      length_statusContent _, ?_, ?_, ?_, fun c => ?_⟩
    · rw [statusContent_parts, List.take_append_of_le_length (by rw [length_statusHead]; omega), statusHead_opening]
      simp
    · rw [statusContent_parts, ← length_statusHead (requested 0x23 f s), List.drop_left,
        List.take_append_of_le_length (by rw [length_trackerOctets]; omega), trackerOctets_opening, (requested_keeps _ _ _).1]
      cases s.tracker.epoch <;> rfl
    · have hlen : (statusHead (requested 0x23 f s) ++ trackerOctets (requested 0x23 f s).tracker).length = 43 := by
        rw [List.length_append, length_statusHead, length_trackerOctets]
      rw [statusContent_parts, ← List.append_assoc, List.drop_left' hlen]
      rfl
    · rw [statusContent_carrier, carrierOctets_opening]
      simp
  · refine ⟨_, congrArg Host.Outcome.next (takeRequest_owner h hl ownerSchedule (ownerSchedule_carrier hc _)), ?_, ?_⟩
    · exact length_scheduleContent c _
    · have hcar : (requested 0x2D f s).car c = s.car c := by simp
      rw [scheduleContent_opening, hcar]
      rfl
  · have hc : carrierOf (field f.body 0 1) = none := (carrierOf_eq_none_iff _).2 (by omega)
    exact congrArg Host.Outcome.next (takeRequest_owner h hl ownerSchedule (ownerSchedule_noCarrier hc _))

end Sys2Proof.Machine
end

section
/-! BATCH_HEADER: the twelve checks in order, and what an accepted header changes (O31 to O33). -/

namespace Sys2Proof.Machine

open Sys2Proof.Safety

/-! ### The checks of a header (R63 to R68) -/

theorem exec_batchHeader {f : RxFrame} {s : State} (h : Takes 0x02 f s) (hl : f.body.length = 11) :
    exec (.batchHeader f) s = .next (ownerHeader f.body (carried .batchHeader 0x02 f s)) :=
  congrArg _ ((takeTraffic_owner (k := .batchHeader) (len := 11) h ownerHeader).trans (if_pos hl))

theorem ownerHeader_noCarrier {body : List Byte} (h : carrierOf (headerFrame body).carrier = none) (s : State) :
    ownerHeader body s = countUnmatched .batchHeader s := by
  simp only [ownerHeader, h]

section
variable {body : List Byte} {c : Carrier} {s : State}

theorem ownerHeader_refused (hc : carrierOf (headerFrame body).carrier = some c) {r : RefuseReason}
    (hj : judgeHeader (headerFrame body) c s = .refused r) : ownerHeader body s = countRefused c r s := by
  simp only [ownerHeader, hc, hj]

theorem ownerHeader_accepted (hc : carrierOf (headerFrame body).carrier = some c) {h : HeaderFields} {n : CycleNo}
    (hj : judgeHeader (headerFrame body) c s = .accepted h n) :
    ownerHeader body s = acceptHeader (headerFrame body).id c h n s := by
  simp only [ownerHeader, hc, hj]

end

section
variable {w : HeaderFrame} {c : Carrier} {s : State}

theorem judgeHeader_notServing (hs : s.mgmt.service ≠ .serving) : judgeHeader w c s = .refused .notServing := if_pos hs

theorem judgeHeader_noTiming (hs : s.mgmt.service = .serving) (ht : timingAvailable s = false) :
    judgeHeader w c s = .refused .noTiming := by
  simp [judgeHeader, hs, ht]

theorem judgeHeader_carrierOff (hs : s.mgmt.service = .serving) (ht : timingAvailable s = true)
    (he : (s.par c).enabled = false) : judgeHeader w c s = .refused .carrierOff := by
  simp [judgeHeader, hs, ht, he]

theorem judgeHeader_badField (hs : s.mgmt.service = .serving) (ht : timingAvailable s = true)
    (he : (s.par c).enabled = true) (hf : headerFields w = none) : judgeHeader w c s = .refused .badField := by
  simp [judgeHeader, hs, ht, he, hf]

/-- With the first four checks passed the placing decides. -/
theorem judgeHeader_fields {h : HeaderFields} (hs : s.mgmt.service = .serving) (ht : timingAvailable s = true)
    (he : (s.par c).enabled = true) (hf : headerFields w = some h) : judgeHeader w c s = judgePlace w c h s := by
  simp [judgeHeader, hs, ht, he, hf]

end

/-! ### The cycle a header names (R65) -/

/-- How far the carried cycle lies ahead of the current one, modulo 65536. -/
theorem cycleAhead_eq (f : Nat) (m : CycleNo) :
    (BitVec.ofNat 16 f - BitVec.ofNat 16 m.toNat).toNat = (f + 65536 - m.toNat % 65536) % 65536 := by
  rw [BitVec.toNat_sub, BitVec.toNat_ofNat, BitVec.toNat_ofNat]
  omega

/-- The placing by that distance. -/
theorem placeHeader_eq (f : Nat) (m : CycleNo) : placeHeader f m =
    if (f + 65536 - m.toNat % 65536) % 65536 = 0 then .current m
    else if (f + 65536 - m.toNat % 65536) % 65536 = 1 then .next (m + 1)
    else if (f + 65536 - m.toNat % 65536) % 65536 ≤ 32767 then .tooEarly else .late := by
  unfold placeHeader
  simp only [cycleAhead_eq]

theorem placeHeader_current {f : Nat} {m : CycleNo} (h : (f + 65536 - m.toNat % 65536) % 65536 = 0) :
    placeHeader f m = .current m := by
  rw [placeHeader_eq, if_pos h]

theorem placeHeader_next {f : Nat} {m : CycleNo} (h : (f + 65536 - m.toNat % 65536) % 65536 = 1) :
    placeHeader f m = .next (m + 1) := by
  rw [placeHeader_eq, if_neg (by omega), if_pos h]

theorem placeHeader_tooEarly {f : Nat} {m : CycleNo} (h : 2 ≤ (f + 65536 - m.toNat % 65536) % 65536)
    (h' : (f + 65536 - m.toNat % 65536) % 65536 ≤ 32767) : placeHeader f m = .tooEarly := by
  rw [placeHeader_eq, if_neg (by omega), if_neg (by omega), if_pos h']

theorem placeHeader_late {f : Nat} {m : CycleNo} (h : 32768 ≤ (f + 65536 - m.toNat % 65536) % 65536) :
    placeHeader f m = .late := by
  rw [placeHeader_eq, if_neg (by omega), if_neg (by omega), if_neg (by omega)]

/-- With timing available there is an epoch number, and check 7 is `Late`. -/
theorem headerLate_iff_late {s : State} (ht : timingAvailable s = true) (c : Carrier) (n : CycleNo) (i : Fin 32) :
    headerLate c n i s = true ↔ Late c n i s := by
  have he : s.tracker.epoch.isSome = true := by simp_all [timingAvailable]
  obtain ⟨e, he⟩ := Option.isSome_iff_exists.1 he
  exact headerLate_iff he

section
variable {w : HeaderFrame} {c : Carrier} {h : HeaderFields} {s : State} {m : CycleNo}

theorem judgePlace_notInGroup (hg : groupPasses c h.group s = false) : judgePlace w c h s = .refused .notInGroup := by
  simp [judgePlace, hg]

theorem judgePlace_tooEarly (hg : groupPasses c h.group s = true) (hm : currentCycle c s = some m)
    (hp : placeHeader w.cycle m = .tooEarly) : judgePlace w c h s = .refused .tooEarly := by
  simp [judgePlace, hg, hm, hp]

theorem judgePlace_late (hg : groupPasses c h.group s = true) (hm : currentCycle c s = some m)
    (hp : placeHeader w.cycle m = .late) : judgePlace w c h s = .refused .late := by
  simp [judgePlace, hg, hm, hp]

/-- Check 7 of a header for the current cycle. -/
theorem judgePlace_slotLate {n : CycleNo} (hg : groupPasses c h.group s = true) (hm : currentCycle c s = some m)
    (hp : placeHeader w.cycle m = .current n) (hl : headerLate c n h.start s = true) :
    judgePlace w c h s = .refused .late := by
  simp [judgePlace, hg, hm, hp, hl]

/-- A header placed in the current cycle, its slot not late, or in the next: the claim checks decide. -/
theorem judgePlace_placed {n : CycleNo} (hg : groupPasses c h.group s = true) (hm : currentCycle c s = some m)
    (hp : (placeHeader w.cycle m = .current n ∧ headerLate c n h.start s = false) ∨ placeHeader w.cycle m = .next n) :
    judgePlace w c h s = judgeClaim w.id c h n s := by
  obtain ⟨hp, hl⟩ | hp := hp
  · simp [judgePlace, hg, hm, hp, hl]
  · simp [judgePlace, hg, hm, hp]

end

/-! ### The claim checks (R66 to R68) -/

section
variable {id : BatchId} {c : Carrier} {h : HeaderFields} {n : CycleNo} {s : State}

theorem judgeClaim_span (hs : 32 < h.start.val + h.slots) : judgeClaim id c h n s = .refused .span := if_pos hs

theorem judgeClaim_slotReserved (hs : h.start.val + h.slots ≤ 32) (hm : (s.par c).markerSlot = some h.start) :
    judgeClaim id c h n s = .refused .slotReserved := by
  rw [judgeClaim, if_neg (by omega), if_pos hm]

theorem judgeClaim_duplicate (hs : h.start.val + h.slots ≤ 32) (hm : (s.par c).markerSlot ≠ some h.start)
    (hd : (findBatch id s).isSome = true) : judgeClaim id c h n s = .refused .duplicate := by
  rw [judgeClaim, if_neg (by omega), if_neg hm, if_pos hd]

theorem judgeClaim_tableFull (hs : h.start.val + h.slots ≤ 32) (hm : (s.par c).markerSlot ≠ some h.start)
    (hd : findBatch id s = none) (hf : 64 ≤ s.batches.length) : judgeClaim id c h n s = .refused .tableFull := by
  rw [judgeClaim, if_neg (by omega), if_neg hm, hd, if_neg (by simp), if_pos (show Config.tableSize ≤ _ from hf)]

/-- With checks 8 to 11 passed the claimant decides. -/
theorem judgeClaim_room (hs : h.start.val + h.slots ≤ 32) (hm : (s.par c).markerSlot ≠ some h.start)
    (hd : findBatch id s = none) (hf : s.batches.length < 64) :
    judgeClaim id c h n s = if claimHolds c n h s then .refused .claimed else .accepted h n := by
  rw [judgeClaim, if_neg (by omega), if_neg hm, hd, if_neg (by simp),
    if_neg (show ¬ Config.tableSize ≤ _ from Nat.not_le.2 hf)]

theorem claimHolds_claimant {b : Batch} (hb : claimant c n h.start s = some b) :
    claimHolds c n h s = true ↔ h.priority ≤ b.priority ∧ (s.par c).claimMode = .strict := by
  simp [claimHolds, hb]

theorem claimHolds_unclaimed (hb : claimant c n h.start s = none) : claimHolds c n h s = false := by
  simp [claimHolds, hb]

end

/-- Settles O33: the checks one after the other, each by its lemma. -/
theorem headerRefusedInOrder : Obligations.HeaderRefusedInOrder := by
  unfold Obligations.HeaderRefusedInOrder
  intro f s hf hl w u
  refine ⟨fun hc => (exec_batchHeader hf hl).trans (congrArg _ (ownerHeader_noCarrier hc u)), fun c hc => ?_⟩
  intro refused
  have hrefuse {r : RefuseReason} (hj : judgeHeader w c u = .refused r) : refused r :=
    (exec_batchHeader hf hl).trans (congrArg _ (ownerHeader_refused hc hj))
  refine ⟨fun hs => hrefuse (judgeHeader_notServing (s := u) hs),
    fun hs ht => hrefuse (judgeHeader_noTiming (s := u) hs ht), fun hs ht =>
    ⟨fun he => hrefuse (judgeHeader_carrierOff (s := u) hs ht he), fun he =>
    ⟨fun hnone => hrefuse (judgeHeader_badField (s := u) hs ht he hnone), fun h hh => ?_⟩⟩⟩
  have hplace {r : RefuseReason} (hj : judgePlace w c h u = .refused r) : refused r :=
    hrefuse ((judgeHeader_fields (s := u) hs ht he hh).trans hj)
  refine ⟨fun hg => hplace (judgePlace_notInGroup (s := u) hg), fun m hg hm => ?_⟩
  intro d n
  have hlate := headerLate_iff_late (s := u) ht c m h.start
  refine ⟨fun h2 h3 => hplace (judgePlace_tooEarly (s := u) hg hm (placeHeader_tooEarly h2 h3)),
    fun h2 => hplace (judgePlace_late (s := u) hg hm (placeHeader_late h2)),
    fun h0 hslot => hplace (judgePlace_slotLate (s := u) hg hm (placeHeader_current h0) (hlate.2 hslot)),
    fun hin => ?_⟩
  have hplaced : (placeHeader w.cycle m = .current n ∧ headerLate c n h.start u = false) ∨
      placeHeader w.cycle m = .next n := by
    obtain ⟨h0, hslot⟩ | h1 := hin
    · have hn : n = m := if_pos h0
      rw [hn]
      exact .inl ⟨placeHeader_current h0, by simpa using fun hl => hslot (hlate.1 hl)⟩
    · have hn : n = m + 1 := if_neg (by omega)
      rw [hn]
      exact .inr (placeHeader_next h1)
  have hclaim {r : RefuseReason} (hj : judgeClaim w.id c h n u = .refused r) : refused r :=
    hplace ((judgePlace_placed (s := u) hg hm hplaced).trans hj)
  refine ⟨fun hspan => hclaim (judgeClaim_span hspan), fun hspan =>
    ⟨fun hmark => hclaim (judgeClaim_slotReserved (s := u) hspan hmark), fun hmark =>
    ⟨fun hdup => hclaim (judgeClaim_duplicate (s := u) hspan hmark hdup), fun hdup =>
    ⟨fun hfull => hclaim (judgeClaim_tableFull (s := u) hspan hmark hdup hfull), fun hroom b hb hpri hstrict => ?_⟩⟩⟩⟩
  exact hclaim ((judgeClaim_room (s := u) hspan hmark hdup hroom).trans
    (if_pos ((claimHolds_claimant (s := u) hb).2 ⟨hpri, hstrict⟩)))

/-! ### Accepted headers (R61, R68, R69) -/

theorem placeHeader_ofCurrent {f : Nat} {m : CycleNo} (h : f = m.toNat % 65536) : placeHeader f m = .current m :=
  placeHeader_current (by omega)

theorem placeHeader_ofNext {f : Nat} {m : CycleNo} (h : f = (m + 1).toNat % 65536) : placeHeader f m = .next (m + 1) := by
  refine placeHeader_next ?_
  rw [h, BitVec.toNat_add, show BitVec.toNat (1 : CycleNo) = 1 from rfl]
  omega

theorem ne_nextCycle (m : CycleNo) : m ≠ m + 1 := by
  intro h
  bv_omega

/-- The claims of labelled maps: of the label's cycle in the current map, of the one after in the next (R61). -/
theorem claimAt_current {c : Carrier} {m : CycleNo} {s : State} (hl : (s.car c).maps.label = some m) (i : Fin 32) :
    claimAt c m i s = (s.car c).maps.current.get i := if_pos hl

theorem claimAt_next {c : Carrier} {m : CycleNo} {s : State} (hl : (s.car c).maps.label = some m) (i : Fin 32) :
    claimAt c (m + 1) i s = (s.car c).maps.next.get i := by
  simp [claimAt, hl]

theorem placeClaim_current {m : CycleNo} {k : ClaimMaps} (hl : k.label = some m) (id : BatchId) (i : Fin 32) :
    placeClaim id m i k = { k with current := k.current.set i.val (some id) i.isLt } := if_pos hl

theorem placeClaim_next {m : CycleNo} {k : ClaimMaps} (hl : k.label = some m) (id : BatchId) (i : Fin 32) :
    placeClaim id (m + 1) i k = { k with next := k.next.set i.val (some id) i.isLt } := by
  unfold placeClaim
  rw [hl]
  exact if_neg fun h => ne_nextCycle m (Option.some.inj h)

/-- Maps that stand for the current cycle stay as they are. -/
theorem bringMaps_current {c : Carrier} {s : State} {m : CycleNo} (hm : currentCycle c s = some m)
    (hl : (s.car c).maps.label = some m) : bringMaps c s = s := by
  simp [bringMaps, hm, hl]

/-- A header all of whose checks pass is accepted. -/
theorem judgeHeader_accepts {w : HeaderFrame} {c : Carrier} {h : HeaderFields} {s : State} {m n : CycleNo}
    (hs : s.mgmt.service = .serving) (ht : timingAvailable s = true) (he : (s.par c).enabled = true)
    (hf : headerFields w = some h) (hg : groupPasses c h.group s = true) (hm : currentCycle c s = some m)
    (hp : (placeHeader w.cycle m = .current n ∧ headerLate c n h.start s = false) ∨ placeHeader w.cycle m = .next n)
    (hspan : h.start.val + h.slots ≤ 32) (hmark : (s.par c).markerSlot ≠ some h.start) (hdup : findBatch w.id s = none)
    (hroom : s.batches.length < 64) (hclaim : claimHolds c n h s = false) : judgeHeader w c s = .accepted h n := by
  rw [judgeHeader_fields hs ht he hf, judgePlace_placed hg hm hp, judgeClaim_room hspan hmark hdup hroom, hclaim]
  rfl

theorem groupPasses_iff {c : Carrier} {g : Fin 16} {s : State} : groupPasses c g s = true ↔
    ((s.align.active.records.get c).rows.get g).enabled = true ∨
      (s.align.pending.isSome = true ∧ ((s.align.staged.records.get c).rows.get g).enabled = true) := by
  simp [groupPasses, activeRow, activeRecord]

/-- A newcomer's record added to state `t`, its claim placed and its carrier woken (R69, R122). -/
def admitted (id : BatchId) (c : Carrier) (h : HeaderFields) (n : CycleNo) (t : State) : State :=
  (t.setBatches (insertRecord (newBatch id c h n) t.batches)).setCar c { t.car c with
    maps := placeClaim id n h.start (t.car c).maps
    power := wokenPower t.now (t.par c).wake (t.car c).power }

@[simp] theorem admitted_keeps (id : BatchId) (c : Carrier) (h : HeaderFields) (n : CycleNo) (t : State) :
    (admitted id c h n t).tracker = t.tracker ∧ (admitted id c h n t).align = t.align ∧
    (admitted id c h n t).store = t.store ∧ (admitted id c h n t).probe = t.probe ∧
    (admitted id c h n t).link = t.link ∧ (admitted id c h n t).mgmt = t.mgmt ∧
    ∀ d, d ≠ c → (admitted id c h n t).car d = t.car d := by
  simp +contextual [admitted, State.setCar_car_other]

theorem findBatch_admitted {id : BatchId} (c : Carrier) (h : HeaderFields) (n : CycleNo) {t : State}
    (hfresh : findBatch id t = none) (x : BatchId) :
    findBatch x (admitted id c h n t) = if x = id then some (newBatch id c h n) else findBatch x t :=
  findBatch_addBatch (b := newBatch id c h n) hfresh x

theorem admitted_car (id : BatchId) (c : Carrier) (h : HeaderFields) (n : CycleNo) (t : State) :
    (admitted id c h n t).car c = { t.car c with
      maps := placeClaim id n h.start (t.car c).maps, power := wokenPower t.now (t.par c).wake (t.car c).power } := by
  simp [admitted]

/-- What an accepted header leaves, once the claimant it displaces has ended and the maps are up to date. -/
theorem acceptHeader_eq (id : BatchId) (c : Carrier) (h : HeaderFields) (n : CycleNo) (s : State) {t : State}
    (ht : bringMaps c (replaceClaimant c n h.start s) = t) : acceptHeader id c h n s = admitted id c h n t := by
  unfold acceptHeader
  rw [ht, wakeTrigger_eq, State.modCar_car_same, State.modCar, State.setCar_setCar]
  rfl

/-- Settles O31: nothing is displaced and no map rolls, so `acceptHeader_eq` is what the header leaves. -/
theorem headerAccepted : Obligations.HeaderAccepted := by
  unfold Obligations.HeaderAccepted
  intro f s c h m hf hl w hc hs ht he hh hg hm hlabel hspan hmark hdup hroom accepted
  let u := carried .batchHeader 0x02 f s
  have hlate := headerLate_iff_late (s := u) ht c m h.start
  have hrun {n : CycleNo} (hp : (placeHeader w.cycle m = .current n ∧ headerLate c n h.start u = false) ∨
      placeHeader w.cycle m = .next n) (hfree : claimant c n h.start u = none) :
      exec (.batchHeader f) s = .next (accepted n (placeClaim w.id n h.start (s.car c).maps)) := by
    have hj := judgeHeader_accepts (s := u) hs ht he hh (groupPasses_iff.2 hg) hm hp hspan hmark hdup hroom
      (claimHolds_unclaimed hfree)
    have hkept : bringMaps c (replaceClaimant c n h.start u) = u := by
      rw [replaceClaimant, hfree]
      exact bringMaps_current (s := u) hm hlabel
    rw [exec_batchHeader hf hl, ownerHeader_accepted hc hj, acceptHeader_eq _ _ _ _ _ hkept]
    rfl
  refine ⟨fun hnext hfree => ?_, fun hcur hslot hfree => ?_⟩
  · rw [hrun (.inr (placeHeader_ofNext hnext)) (by rw [claimant, claimAt_next (s := u) hlabel]; exact congrArg (Option.bind · _) hfree),
      placeClaim_next hlabel]
  · rw [hrun (.inl ⟨placeHeader_ofCurrent hcur, by simpa using fun hl => hslot (hlate.1 hl)⟩)
        (by rw [claimant, claimAt_current (s := u) hlabel]; exact congrArg (Option.bind · _) hfree),
      placeClaim_current hlabel]

/-! ### The end of a batch on its carrier (R60) -/

/-- The blocks of a batch that ends are FREE again, and counted (R60, R80). -/
theorem endBatch_frees {s : State} (h : BlocksAccounted s) {id : BatchId} {b : Batch} (hb : findBatch id s = some b)
    (why : EndReason) : (∀ n, some n ∈ b.blocks → (readBlock n (endBatch id why s)).tag = .free) ∧
      (endBatch id why s).store.freeCount = s.store.freeCount + (b.blocks.filterMap fun x => x).length := by
  obtain ⟨hw, -, -, -, hlt, -⟩ := h
  obtain ⟨-, hstore, -⟩ := endBatch_some hb why
  have hheld (n : Nat) (hn : some n ∈ b.blocks) : n < Config.storeSize :=
    hlt n (List.mem_flatMap.2 ⟨b, (findBatch_some hb).2, mem_heldIn.2 hn⟩)
  refine ⟨fun n hn => ?_, by rw [hstore, freeCount_freeBlocks]⟩
  have htag := tag_freeBlocks (s := s) hw hheld n
  unfold readBlock at *
  rw [hstore, htag, if_pos hn]

/-- A PENDING or COMPLETE batch stands neither on air nor on its carrier's stack. -/
theorem waiting_placed {s : State} (h : Scheduled s) {b : Batch} (hb : findBatch b.id s = some b)
    (hstate : b.state = .pending ∨ b.state = .complete) :
    (s.car b.carrier).sched.onAir ≠ some b.id ∧ b.id ∉ (s.car b.carrier).sched.stack := by
  obtain ⟨-, -, -, hrec, -⟩ := h.2 b.carrier
  obtain ⟨hair, hstack⟩ := hrec b (findBatch_some hb).2 rfl
  refine ⟨fun e => ?_, fun e => ?_⟩
  · have := hair.2 e
    rcases hstate with hs | hs <;> rw [hs] at this <;> cases this
  · have := hstack.2 e
    rcases hstate with hs | hs <;> rw [hs] at this <;> cases this

/-- The end of a batch that stands nowhere leaves the Scheduler. -/
theorem dropFromCarrier_sched {id : BatchId} {k : CarrierState} (ha : k.sched.onAir ≠ some id)
    (hi : k.sched.incoming ≠ some id) (hs : id ∉ k.sched.stack) : (dropFromCarrier id k).sched = k.sched := by
  have hfilter : k.sched.stack.filter (fun x => x ≠ id) = k.sched.stack :=
    List.filter_eq_self.2 fun x hx => by simpa using fun e : x = id => hs (e ▸ hx)
  simp only [dropFromCarrier, if_neg ha, if_neg hi, hfilter]

/-- The batch a claim names: PENDING or COMPLETE on the carrier of the map, and not incoming (R61). -/
theorem claim_waits {s : State} (h : Scheduled s) {c : Carrier} {m : CycleNo} (hl : (s.car c).maps.label = some m) {i : Fin 32}
    {b : Batch} (hb : findBatch b.id s = some b)
    (hi : (s.car c).maps.current.get i = some b.id ∨ (s.car c).maps.next.get i = some b.id) :
    b.carrier = c ∧ (b.state = .pending ∨ b.state = .complete) ∧ (s.car c).sched.incoming ≠ some b.id := by
  have hclaims := (h.2 c).1.2 m hl i b.id
  obtain hi | hi := hi
  · obtain ⟨x, hx, hxc, -, -, hstate, hinc⟩ := hclaims.1 hi
    obtain rfl := Option.some.inj (hb.symm.trans hx)
    exact ⟨hxc, hstate, hinc⟩
  · obtain ⟨x, hx, hxc, -, -, hstate, hinc⟩ := hclaims.2 hi
    obtain rfl := Option.some.inj (hb.symm.trans hx)
    exact ⟨hxc, hstate, hinc⟩

theorem currentCycle_endBatch (c : Carrier) (id : BatchId) (why : EndReason) (s : State) :
    currentCycle c (endBatch id why s) = currentCycle c s := by
  simp [currentCycle, startPassed, startSettled, timingAvailable]

/-- Settles O32: the claimant's end is `endBatch_some`'s, and `acceptHeader_eq` adds the newcomer. -/
theorem headerReplacesClaimant : Obligations.HeaderReplacesClaimant := by
  unfold Obligations.HeaderReplacesClaimant
  intro f s c h m b hf hl w u forNext forCurrent hc hs ht he hh hg hm hlabel hspan hmark hdup hroom hsched hblocks hb hwins hfor
  have hlate := headerLate_iff_late (s := u) ht c m h.start
  have hclaimed : (s.car c).maps.current.get h.start = some b.id ∨ (s.car c).maps.next.get h.start = some b.id :=
    hfor.elim (fun hn => .inr hn.2) fun hcur => .inl hcur.2.2
  obtain ⟨rfl, hstate, hinc⟩ := claim_waits hsched hlabel hb hclaimed
  obtain ⟨hair, hstack⟩ := waiting_placed hsched hb hstate
  have hbu : findBatch b.id u = some b := hb
  obtain ⟨hbatches, -, hfind, hcar, hother⟩ := endBatch_some hbu .replaced
  obtain ⟨hfree, hcount⟩ := endBatch_frees (s := u) (blocksAccounted_congr (s := s) rfl rfl hblocks) hbu .replaced
  have hne : w.id ≠ b.id := fun e => by rw [← e, hdup] at hb; cases hb
  have hfresh : findBatch w.id (endBatch b.id .replaced u) = none := by rw [hfind, if_neg hne]; exact hdup
  have hrun {n : CycleNo} (hp : (placeHeader w.cycle m = .current n ∧ headerLate b.carrier n h.start u = false) ∨
      placeHeader w.cycle m = .next n) (hclaim : claimant b.carrier n h.start u = some b) :
      exec (.batchHeader f) s = .next (admitted w.id b.carrier h n (endBatch b.id .replaced u)) := by
    have hyields : claimHolds b.carrier n h u = false := by
      rw [← Bool.not_eq_true, claimHolds_claimant hclaim]
      rintro ⟨hle, hstrict⟩
      obtain hlt | hreplace := hwins
      · exact absurd hlt (not_lt.2 hle)
      · exact absurd (hreplace.symm.trans hstrict) (by decide)
    have hj := judgeHeader_accepts (s := u) hs ht he hh (groupPasses_iff.2 hg) hm hp hspan hmark hdup hroom hyields
    have hbrought : bringMaps b.carrier (replaceClaimant b.carrier n h.start u) = endBatch b.id .replaced u := by
      rw [replaceClaimant, hclaim]
      exact bringMaps_current ((currentCycle_endBatch _ _ _ u).trans hm) ((endBatch_maps b.id .replaced u b.carrier).1.trans hlabel)
    rw [exec_batchHeader hf hl, ownerHeader_accepted hc hj, acceptHeader_eq _ _ _ _ _ hbrought]
  have hlabel' : ((endBatch b.id .replaced u).car b.carrier).maps.label = some m :=
    (endBatch_maps b.id .replaced u b.carrier).1.trans hlabel
  obtain ⟨n, hp, hclaim, hnext, hcur⟩ : ∃ n, ((placeHeader w.cycle m = .current n ∧ headerLate b.carrier n h.start u = false) ∨
      placeHeader w.cycle m = .next n) ∧ claimant b.carrier n h.start u = some b ∧
      (forNext → n = m + 1 ∧
        (placeClaim w.id n h.start ((endBatch b.id .replaced u).car b.carrier).maps).next.get h.start = some w.id) ∧
      (forCurrent → n = m ∧
        (placeClaim w.id n h.start ((endBatch b.id .replaced u).car b.carrier).maps).current.get h.start = some w.id) := by
    have hapart : forNext → ¬ forCurrent := by
      rintro ⟨hn, -⟩ ⟨hc, -⟩
      have := placeHeader_ofCurrent hc
      rw [placeHeader_ofNext hn] at this
      cases this
    obtain hfor | hfor := hfor
    · refine ⟨m + 1, .inr (placeHeader_ofNext hfor.1), ?_, fun _ => ⟨rfl, ?_⟩, fun hcur => absurd hcur (hapart hfor)⟩
      · rw [claimant, claimAt_next (s := u) hlabel]
        exact (congrArg (Option.bind · _) hfor.2).trans hb
      · rw [placeClaim_next hlabel', claimMap_get_set, if_pos rfl]
    · refine ⟨m, .inl ⟨placeHeader_ofCurrent hfor.1, by simpa using fun hl => hfor.2.1 (hlate.1 hl)⟩, ?_,
        fun hnext => absurd hfor (hapart hnext), fun _ => ⟨rfl, ?_⟩⟩
      · rw [claimant, claimAt_current (s := u) hlabel]
        exact (congrArg (Option.bind · _) hfor.2.2).trans hb
      · rw [placeClaim_current hlabel', claimMap_get_set, if_pos rfl]
  have hfound (x : BatchId) := findBatch_admitted b.carrier h n hfresh x
  have hcarrier := admitted_car w.id b.carrier h n (endBatch b.id .replaced u)
  refine ⟨_, newBatch w.id b.carrier h n, hrun hp hclaim, ?_, (hfound w.id).trans (if_pos rfl), fun i hb hw => ?_,
    rfl, rfl, rfl, rfl, rfl, rfl, rfl, fun hn => ⟨(hnext hn).1, by rw [hcarrier]; exact (hnext hn).2⟩,
    fun hn => ⟨(hcur hn).1, by rw [hcarrier]; exact (hcur hn).2⟩, fun n hn => ?_, ?_, ?_, ?_, ?_, ?_, by simp [u],
    by simp [u], by simp [u], by simp, by simp, fun d hd => ?_⟩
  · rw [hfound, if_neg hne.symm, hfind, if_pos rfl]
  · rw [hfound, if_neg hw, hfind, if_neg hb]
    rfl
  · exact hfree n hn
  · exact hcount
  · rw [hcarrier, hcar]
    rfl
  · rw [hcarrier, hcar]
    exact dropFromCarrier_sched hair hinc hstack
  · rw [hcarrier, hcar]
    rfl
  · rw [hcarrier, hcar]
    rfl
  · rw [(admitted_keeps _ _ _ _ _).2.2.2.2.2.2 d hd, hother d hd]
    rfl

end Sys2Proof.Machine
end

section
/-! The codes that an ending assigns by run or by span, and CANCEL by the state of the batch (O35). -/

namespace Sys2Proof.Machine

open Sys2Proof.Safety

/-! ### Codes given to open slots (R101, R102) -/

/-- The same code assigned twice is held as if assigned once. -/
theorem mergeCode_again (h : Option SlotOutcome) (o : SlotOutcome) : mergeCode (mergeCode h o) o = mergeCode h o := by
  cases h with
  | none => simp [mergeCode]
  | some x => by_cases hlt : codeNumber x.code < codeNumber o.code <;> simp [mergeCode, hlt]

/-- A code given by one test and then by another reaches the slots that either picks. -/
theorem coded_coded (p q : SlotRef → Bool) (o : SlotOutcome) (slots : List OpenSlot) :
    coded q o (coded p o slots) = coded (fun x => p x || q x) o slots := by
  unfold coded
  rw [List.map_map]
  refine List.map_congr_left fun x _ => ?_
  cases hp : p x.slot <;> cases hq : q x.slot <;> simp [hp, hq, mergeCode_again]

theorem coded_nowhere {p : SlotRef → Bool} {slots : List OpenSlot} (h : ∀ x ∈ slots, p x.slot = false) (o : SlotOutcome) :
    coded p o slots = slots := by
  unfold coded
  exact (List.map_congr_left fun x hx => by rw [h x hx, if_neg (by simp), id]).trans (List.map_id _)

/-- A code changes what a slot holds, not which slots are open. -/
theorem coded_slots (p : SlotRef → Bool) (o : SlotOutcome) (slots : List OpenSlot) :
    (coded p o slots).map OpenSlot.slot = slots.map OpenSlot.slot := by
  unfold coded
  rw [List.map_map]
  refine List.map_congr_left fun x _ => ?_
  simp only [Function.comp]
  split <;> rfl

theorem open_of_slots {sl : SlotRef} {l m : List OpenSlot} (h : m.map OpenSlot.slot = l.map OpenSlot.slot)
    (ho : ∃ x ∈ l, x.slot = sl) : ∃ x ∈ m, x.slot = sl := by
  rw [← List.mem_map, h]
  exact List.mem_map.2 ho

/-- A code given to several open slots one after the other is given to the slots that the list holds. -/
theorem foldl_assignIn (o : SlotOutcome) (sls : List SlotRef) {slots : List OpenSlot}
    (h : ∀ sl ∈ sls, ∃ x ∈ slots, x.slot = sl) :
    sls.foldl (fun os sl => assignIn sl o os) slots = coded (fun r => sls.any fun sl => r = sl) o slots := by
  induction sls generalizing slots with
  | nil => exact (coded_nowhere (by simp) o).symm
  | cons sl sls ih =>
    have hrest (x : SlotRef) (hx : x ∈ sls) := open_of_slots (coded_slots (fun r => r = sl) o slots) (h x (by simp [hx]))
    rw [List.foldl_cons, assignIn_open (h sl (by simp)) o, ih hrest, coded_coded]
    simp only [List.any_cons]

/-! ### An ending that no step assigns (R101) -/

/-- The slots of the runs that name a batch. -/
def namedSlots (id : BatchId) (t : LaunchTimer) : List SlotRef := (t.runs.filter fun r => r.names id).map Run.slot

/-- The open slots of a carrier after an ending that no step assigns. -/
def codedByRun (code : OutcomeCode) (id : BatchId) (w : Tracker) (k : CarrierState) : List OpenSlot :=
  match namedSlots id k.timer with
  | [] => assignSpan w { code := code, id := some id } k.sched
  | sls => sls.foldl (fun os sl => assignIn sl { code := code, id := some id } os) k.sched.openSlots

theorem assignByRun_eq (c : Carrier) (code : OutcomeCode) (id : BatchId) (s : State) :
    assignByRun c code id s = modSched c (fun x => { x with openSlots := codedByRun code id s.tracker (s.car c) }) s := by
  unfold assignByRun codedByRun namedSlots
  split <;> rename_i h <;> simp only [h] <;> rfl

/-- With no run naming the batch its span decides. -/
theorem codedByRun_unnamed {id : BatchId} {k : CarrierState} (h : ∀ r ∈ k.timer.runs, r.names id = false) (code : OutcomeCode)
    (w : Tracker) : codedByRun code id w k = coded (spanTest w k.sched) { code := code, id := some id } k.sched.openSlots := by
  have hnone : namedSlots id k.timer = [] := by
    simpa [namedSlots] using h
  unfold codedByRun
  rw [hnone]
  rfl

/-- With the slots of the runs that name it open, those slots take the code. -/
theorem codedByRun_named {id : BatchId} {k : CarrierState} (h : ∃ r ∈ k.timer.runs, r.names id = true)
    (ho : ∀ r ∈ k.timer.runs, r.names id = true → ∃ x ∈ k.sched.openSlots, x.slot = r.slot) (code : OutcomeCode) (w : Tracker) :
    codedByRun code id w k = coded (fun x => k.timer.runs.any fun r => r.names id && r.slot = x)
      { code := code, id := some id } k.sched.openSlots := by
  have hopen (sl : SlotRef) (hsl : sl ∈ namedSlots id k.timer) : ∃ x ∈ k.sched.openSlots, x.slot = sl := by
    obtain ⟨r, hr, rfl⟩ := List.mem_map.1 hsl
    obtain ⟨hr, hn⟩ := List.mem_filter.1 hr
    exact ho r hr hn
  have hsome : namedSlots id k.timer ≠ [] := by
    obtain ⟨r, hr, hn⟩ := h
    exact List.ne_nil_of_mem (List.mem_map.2 ⟨r, List.mem_filter.2 ⟨hr, hn⟩, rfl⟩)
  have htest : (fun x => (namedSlots id k.timer).any fun sl => decide (x = sl)) =
      fun x => k.timer.runs.any fun r => r.names id && r.slot = x := by
    funext x
    rw [Bool.eq_iff_iff]
    simp only [namedSlots, List.any_eq_true, List.mem_map, List.mem_filter, decide_eq_true_eq, Bool.and_eq_true]
    exact ⟨fun ⟨_, ⟨r, ⟨hr, hn⟩, hs⟩, hx⟩ => ⟨r, hr, hn, hs.trans hx.symm⟩,
      fun ⟨r, hr, hn, hs⟩ => ⟨x, ⟨r, ⟨hr, hn⟩, hs⟩, rfl⟩⟩
  unfold codedByRun
  split
  · next hnil => exact absurd hnil hsome
  · rw [foldl_assignIn _ _ hopen, htest]

/-! ### CANCEL by the state of the batch (R75, R76, R107) -/

theorem exec_cancel {f : RxFrame} {s : State} (h : Takes 0x04 f s) (hl : f.body.length = 2) :
    exec (.cancel f) s = .next (ownerCancel f.body (carried .cancel 0x04 f s)) :=
  congrArg _ ((takeTraffic_owner (k := .cancel) (len := 2) h ownerCancel).trans (if_pos hl))

section
variable {body : List Byte} {s : State} {b : Batch}

theorem ownerCancel_noRecord (h : findBatch (BitVec.ofNat 16 (field body 0 2)) s = none) :
    ownerCancel body s = countUnmatched .cancel s := by
  simp only [ownerCancel, h]

theorem ownerCancel_onAir (h : findBatch (BitVec.ofNat 16 (field body 0 2)) s = some b) (hs : b.state = .onAir) :
    ownerCancel body s =
      modBatch (BitVec.ofNat 16 (field body 0 2)) (fun b => { b with cancelPending := true }) s := by
  simp only [ownerCancel, h, hs]

/-- A SUSPENDED or incoming batch assigns CANCELLED as it ends. -/
theorem ownerCancel_coded (h : findBatch (BitVec.ofNat 16 (field body 0 2)) s = some b)
    (hs : b.state = .suspended ∨ (b.state ≠ .onAir ∧
      (s.car b.carrier).sched.incoming = some (BitVec.ofNat 16 (field body 0 2)))) :
    ownerCancel body s = endBatch (BitVec.ofNat 16 (field body 0 2)) .cancelled
      (assignByRun b.carrier .cancelled (BitVec.ofNat 16 (field body 0 2)) s) := by
  simp only [ownerCancel, h]
  obtain hs | ⟨hs, hi⟩ := hs
  · simp only [hs]
  · cases hb : b.state with
    | onAir => exact absurd hb hs
    | suspended => rfl
    | pending | complete => exact if_pos hi

/-- Any other batch that is not on air ends with no code. -/
theorem ownerCancel_waiting (h : findBatch (BitVec.ofNat 16 (field body 0 2)) s = some b) (hs : b.state ≠ .suspended)
    (ha : b.state ≠ .onAir) (hi : (s.car b.carrier).sched.incoming ≠ some (BitVec.ofNat 16 (field body 0 2))) :
    ownerCancel body s = endBatch (BitVec.ofNat 16 (field body 0 2)) .cancelled s := by
  simp only [ownerCancel, h]
  cases hb : b.state with
  | onAir => exact absurd hb ha
  | suspended => exact absurd hb hs
  | pending | complete => exact if_neg hi

end

/-- An ended batch's claim stands in neither map of its carrier (R60, R61). -/
theorem dropFromCarrier_maps (id : BatchId) (k : CarrierState) (i : Fin 32) :
    (dropFromCarrier id k).maps.current.get i ≠ some id ∧ (dropFromCarrier id k).maps.next.get i ≠ some id :=
  ⟨fun h => (clearClaim_get.1 h).2 rfl, fun h => (clearClaim_get.1 h).2 rfl⟩

/-- A batch that is not on air takes its place on the stack and as the incoming batch with it (R94, R96). -/
theorem dropFromCarrier_waiting {id : BatchId} {k : CarrierState} (ha : k.sched.onAir ≠ some id) :
    (dropFromCarrier id k).sched = { k.sched with
      incoming := if k.sched.incoming = some id then none else k.sched.incoming
      stack := k.sched.stack.filter fun x => x ≠ id } := by
  simp only [dropFromCarrier, if_neg ha]

/-- The open slots that CANCEL of a batch not on air leaves: a SUSPENDED or incoming one assigns CANCELLED (R100). -/
def cancelSlots (b : Batch) (s : State) : List OpenSlot :=
  if b.state = .suspended ∨ (s.car b.carrier).sched.incoming = some b.id then
    codedByRun .cancelled b.id s.tracker (s.car b.carrier)
  else (s.car b.carrier).sched.openSlots

theorem modSched_self (c : Carrier) (s : State) : modSched c (fun x => { x with openSlots := (s.car c).sched.openSlots }) s = s := by
  unfold modSched State.modCar
  exact s.setCar_self c

theorem ownerCancel_ends {body : List Byte} {s : State} {b : Batch}
    (h : findBatch (BitVec.ofNat 16 (field body 0 2)) s = some b) (ha : b.state ≠ .onAir) :
    ownerCancel body s = endBatch b.id .cancelled (modSched b.carrier (fun x => { x with openSlots := cancelSlots b s }) s) := by
  have hid : b.id = BitVec.ofNat 16 (field body 0 2) := (findBatch_some h).1
  unfold cancelSlots
  rw [hid]
  split
  · next hc =>
    rw [ownerCancel_coded h (hc.imp_right fun hi => ⟨ha, hi⟩), assignByRun_eq]
  · next hc =>
    obtain ⟨hs, hi⟩ := not_or.1 hc
    rw [ownerCancel_waiting h hs ha hi, modSched_self]

/-- Settles O35, state by state: each end goes through `endBatch_some`, its code through the runs that name the batch. -/
theorem cancelByState : Obligations.CancelByState := by
  unfold Obligations.CancelByState
  intro f s hf hl hblocks hsched id u
  rw [exec_cancel hf hl]
  refine ⟨fun hnone => congrArg _ (ownerCancel_noRecord (s := u) hnone), fun b hb => ?_⟩
  refine ⟨fun ha => congrArg _ (ownerCancel_onAir (s := u) hb ha), fun ha => ⟨_, rfl, ?_⟩⟩
  rw [ownerCancel_ends (s := u) hb ha]
  obtain ⟨hid, hmem⟩ := findBatch_some hb
  clear_value id
  subst hid
  let v := modSched b.carrier (fun x => { x with openSlots := cancelSlots b u }) u
  have hbv : findBatch b.id v = some b := (findBatch_congr (by simp [v, u]) _).trans hb
  have hair : (s.car b.carrier).sched.onAir ≠ some b.id := fun e => ha (((hsched.2 b.carrier).2.2.2.1 b hmem rfl).1.2 e)
  obtain ⟨-, -, hfind, hcar, hother⟩ := endBatch_some hbv .cancelled
  obtain ⟨hfree, hcount⟩ := endBatch_frees (s := v)
    (blocksAccounted_congr (s := s) (by simp [v, u]) (by simp [v, u]) hblocks) hbv .cancelled
  have hvcar : v.car b.carrier = { s.car b.carrier with
      sched := { (s.car b.carrier).sched with openSlots := cancelSlots b u } } := by simp [v, u, modSched]
  have hslots : ((endBatch b.id .cancelled v).car b.carrier).sched.openSlots = cancelSlots b u := by rw [hcar, hvcar]; rfl
  rw [hvcar] at hcar
  refine ⟨(hfind _).trans (if_pos rfl), fun x hx => (hfind x).trans ((if_neg hx).trans (findBatch_congr (by simp [v, u]) x)),
    hfree, hcount.trans (by simp [v, u]), fun i => hcar ▸ dropFromCarrier_maps b.id _ i, ?_, ?_, ?_, ?_, ?_, by simp [u],
    by simp [u], by simp [u], by simp [u], by simp [u], fun d hd => (hother d hd).trans (by simp [v, u, hd]), ?_⟩
  · rw [hcar]; rfl
  · rw [hcar]
    exact if_neg hair
  · rw [hcar]; rfl
  · rw [hcar]; rfl
  · rw [hcar]; rfl
  intro k slots given marked
  refine ⟨by rw [hcar]; rfl, ?_, fun hs hi => hslots.trans (if_neg (not_or.2 ⟨hs, hi⟩)), fun hcode => ?_⟩
  · rw [show slots = cancelSlots b u from hslots, hcar]
    exact dropFromCarrier_waiting hair
  · have hgiven (p : SlotRef → Bool) (h : codedByRun .cancelled b.id s.tracker k = coded p
        { code := .cancelled, id := some b.id } k.sched.openSlots) : given p := hslots.trans ((if_pos hcode).trans h)
    refine ⟨fun hnamed hopen => hgiven _ (codedByRun_named hnamed hopen .cancelled s.tracker), fun hnone => ?_⟩
    have hspan := codedByRun_unnamed hnone .cancelled s.tracker
    refine ⟨fun hopen => hgiven _ (by rw [hspan, spanTest_open hopen]), fun q hq => hgiven _ (hspan.trans ?_)⟩
    rw [spanTest, hq]
    simp [inClosedSpan]

end Sys2Proof.Machine
end

section
/-! The settled mark of a carrier, read within a half circle of a common point, and LOAD_SITE (O56). -/

namespace Sys2Proof.Machine

open Sys2Proof.Safety

/-! ### Instants within 2^70 sub-ticks of a common point (log 4) -/

/-- Such instants are in the order of their distances from the point. -/
theorem fxAfter_iff {x y z : Fx} (hx : (x - z).toNat < 2 ^ 70) (hy : (y - z).toNat < 2 ^ 70) :
    fxAfter x y = true ↔ (y - z).toNat < (x - z).toNat := by
  have hd : x - y = (x - z) - (y - z) := by bv_omega
  have he : x = y ↔ x - z = y - z := ⟨fun h => h ▸ rfl, fun h => by bv_omega⟩
  unfold fxAfter
  simp only [hd, ne_eq, he]
  generalize x - z = a at *
  generalize y - z = b at *
  simp only [Bool.and_eq_true, decide_eq_true_eq, BitVec.toNat_sub, BitVec.toNat_eq]
  omega

/-- The ticks from the point to such an instant. -/
theorem fxTick_span {x z : Fx} (hx : (x - z).toNat < 2 ^ 70) :
    (fxTick x - fxTick z).toNat = (z.toNat % 65536 + (x - z).toNat) / 65536 := by
  have hz := z.isLt
  have hxz : x.toNat = (z.toNat + (x - z).toNat) % 2 ^ 72 := by
    rw [← BitVec.toNat_add]
    congr 1
    bv_omega
  rw [BitVec.toNat_sub, toNat_fxTick, toNat_fxTick]
  omega

/-- The decision instant of a slot start is reached once the ticks to the start are no more than those to the tick count, the
lead and margin added to it. -/
theorem tickReached_iff {now : Tick} {x z : Fx} {d : BitVec 56} (hx : (x - z).toNat < 2 ^ 70)
    (hn : (now + d - fxTick z).toNat < 2 ^ 54) :
    tickReached now (fxTick x - d) = true ↔ (fxTick x - fxTick z).toNat ≤ (now + d - fxTick z).toNat := by
  have hlt : (fxTick x - fxTick z).toNat ≤ 2 ^ 54 := by
    rw [fxTick_span hx]
    omega
  have hd : now - (fxTick x - d) = (now + d - fxTick z) - (fxTick x - fxTick z) := by bv_omega
  unfold tickReached tickSpan
  rw [hd, decide_eq_true_eq, BitVec.toNat_sub]
  omega

theorem fxTick_span_mono {x y z : Fx} (hx : (x - z).toNat < 2 ^ 70) (hy : (y - z).toNat < 2 ^ 70)
    (h : (x - z).toNat ≤ (y - z).toNat) : (fxTick x - fxTick z).toNat ≤ (fxTick y - fxTick z).toNat := by
  rw [fxTick_span hx, fxTick_span hy]
  omega

/-! ### The settled mark (R86, log 17) -/

/-- A slot start is settled under the mark `m`: it is not after it. -/
def settledBy (m : Option Fx) (start : Fx) : Bool :=
  match m with
  | some t => !fxAfter start t
  | none => false

theorem startSettled_eq (c : Carrier) (start : Fx) (s : State) :
    startSettled c start s = settledBy (s.car c).sched.settled start := rfl

theorem unsettled_eq (c : Carrier) (sl : SlotRef) (s : State) :
    unsettled c sl s = !settledBy (s.car c).sched.settled (slotStart sl) := rfl

/-- A mark, if there is one, lies within 2^70 sub-ticks of `z`. -/
def MarkNear (z : Fx) (m : Option Fx) : Prop := ∀ y, m = some y → (y - z).toNat < 2 ^ 70

theorem markNear_laterStart {z : Fx} {m : Option Fx} {x : Fx} (hm : MarkNear z m) (hx : (x - z).toNat < 2 ^ 70) :
    MarkNear z (laterStart m x) := by
  intro y hy
  unfold laterStart at hy
  split at hy
  · next t =>
    split at hy
    · exact Option.some.inj hy ▸ hx
    · exact Option.some.inj hy ▸ hm t rfl
  · exact Option.some.inj hy ▸ hx

/-- A mark moved up to a slot start settles what it settled before, and every slot not after that start. -/
theorem settledBy_laterStart {z : Fx} {m : Option Fx} {x start : Fx} (hm : MarkNear z m) (hx : (x - z).toNat < 2 ^ 70)
    (hs : (start - z).toNat < 2 ^ 70) :
    settledBy (laterStart m x) start = (settledBy m start || !fxAfter start x) := by
  cases m with
  | none => rfl
  | some y =>
    have hy := hm y rfl
    unfold laterStart
    rw [Bool.eq_iff_iff]
    dsimp only
    split_ifs with h
    · rw [fxAfter_iff hx hy] at h
      simp only [settledBy, Bool.or_eq_true, Bool.not_eq_true', ← Bool.not_eq_true, fxAfter_iff hs hx, fxAfter_iff hs hy]
      omega
    · rw [fxAfter_iff hx hy] at h
      simp only [settledBy, Bool.or_eq_true, Bool.not_eq_true', ← Bool.not_eq_true, fxAfter_iff hs hx, fxAfter_iff hs hy]
      omega

theorem settledBy_foldl {z : Fx} (sls : List SlotRef) {m : Option Fx} {start : Fx} (hm : MarkNear z m)
    (hx : ∀ sl ∈ sls, (slotStart sl - z).toNat < 2 ^ 70) (hs : (start - z).toNat < 2 ^ 70) :
    settledBy (sls.foldl (fun t sl => laterStart t (slotStart sl)) m) start =
      (settledBy m start || sls.any fun sl => !fxAfter start (slotStart sl)) := by
  induction sls generalizing m with
  | nil => simp
  | cons sl sls ih =>
    have hsl := hx sl (by simp)
    rw [List.foldl_cons, ih (markNear_laterStart hm hsl) fun x h => hx x (by simp [h]), settledBy_laterStart hm hsl hs,
      List.any_cons, Bool.or_assoc]

/-! ### The slots a raised lead passes over (R86, R167) -/

/-- The settled mark of a carrier after its lead has been written. -/
def passedMark (old new : Nat) (s : State) (m : Option Fx) : Option Fx :=
  if old < new then
    ((candidateSlots s).filter fun sl => tickReached s.now (decisionInstant (slotStart sl) new)).foldl
      (fun t sl => laterStart t (slotStart sl)) m
  else m

theorem candidateSlots_congr {s t : State} (h : t.tracker = s.tracker) : candidateSlots t = candidateSlots s := by
  unfold candidateSlots
  rw [h]

theorem passedMark_congr {s t : State} (h : t.tracker = s.tracker) (old new : Nat) (m : Option Fx) :
    passedMark old new t m = passedMark old new s m := by
  unfold passedMark State.now
  rw [candidateSlots_congr h, h]

theorem passOver_same (old : Nat) (c : Carrier) (s : State) : (passOver old c s).car c = { s.car c with
    sched := { (s.car c).sched with settled := passedMark old (s.par c).lead s (s.car c).sched.settled } } := by
  unfold passOver passedMark modSched
  split
  · rw [State.modCar_car_same]
  · rfl

/-- A raised lead passes over the slots whose decision instant is reached, and no other. -/
theorem settledBy_passedMark {z : Fx} {s : State} {m : Option Fx} {old new : Nat} (hl : old < new) (hm : MarkNear z m)
    (hx : ∀ sl ∈ candidateSlots s, (slotStart sl - z).toNat < 2 ^ 70)
    (hn : (s.now + BitVec.ofNat 56 (new * 10000 + 25000) - fxTick z).toNat < 2 ^ 54) {sl : SlotRef} (hsl : sl ∈ candidateSlots s) :
    settledBy (passedMark old new s m) (slotStart sl) =
      (settledBy m (slotStart sl) || tickReached s.now (decisionInstant (slotStart sl) new)) := by
  have hreached (y : SlotRef) (hy : y ∈ candidateSlots s) := tickReached_iff (hx y hy) hn
  have hpassed : ((candidateSlots s).filter fun y => tickReached s.now (decisionInstant (slotStart y) new)).any
      (fun y => !fxAfter (slotStart sl) (slotStart y)) = tickReached s.now (decisionInstant (slotStart sl) new) := by
    rw [Bool.eq_iff_iff, List.any_eq_true]
    constructor
    · rintro ⟨y, hy, hnot⟩
      obtain ⟨hy, hr⟩ := List.mem_filter.1 hy
      rw [Bool.not_eq_true', ← Bool.not_eq_true, fxAfter_iff (hx sl hsl) (hx y hy), not_lt] at hnot
      exact (hreached sl hsl).2 ((fxTick_span_mono (hx sl hsl) (hx y hy) hnot).trans ((hreached y hy).1 hr))
    · intro hr
      exact ⟨sl, List.mem_filter.2 ⟨hsl, hr⟩, by simp [fxAfter]⟩
  unfold passedMark
  rw [if_pos hl, settledBy_foldl _ hm (fun y hy => hx y (List.mem_of_mem_filter hy)) (hx sl hsl), hpassed]

/-! ### A taken LOAD_SITE, part by part (R166, R167) -/

section
variable (body : List Byte) (s : State)

theorem loadSite_same : (loadSite body s).tracker = s.tracker ∧ (loadSite body s).batches = s.batches ∧
    (loadSite body s).probe = s.probe ∧ (loadSite body s).link = s.link ∧
    (loadSite body s).mgmt = { s.mgmt with service := .configured, params := loadedSite body } ∧
    (loadSite body s).align = { s.align with
      delays := s.align.delays.map fun c _ => { value := (loadedDelay body c).toNat, pending := none } } ∧
    (loadSite body s).store = { s.store with
      low := (storeLowFlag (loadedSite body).storeLow (loadedSite body).storeHigh s.store.freeCount s.store.low) } := by
  simp [loadSite, evalStoreLow, loadDelays]

theorem loadedSite_get (c : Carrier) : (loadedSite body).carriers.get c = loadedParams body c := by
  cases c <;> rfl

theorem loadSite_par (c : Carrier) : (loadSite body s).par c = loadedParams body c := by
  obtain ⟨-, -, -, -, hmgmt, -⟩ := loadSite_same body s
  rw [State.par, hmgmt, ← loadedSite_get]

theorem loadSite_car (c : Carrier) : (loadSite body s).car c = { s.car c with sched := { (s.car c).sched with
    settled := passedMark (s.par c).lead (loadedParams body c).lead s (s.car c).sched.settled } } := by
  have hpar (t : State) (ht : t.mgmt.params = loadedSite body) : t.par c = loadedParams body c := by
    rw [State.par, ht, loadedSite_get]
  have hown (l : Nat) (t : State) (ht : t.mgmt.params = loadedSite body) (hk : t.car c = s.car c) (hw : t.tracker = s.tracker) :
      (passOver l c t).car c = { s.car c with sched := { (s.car c).sched with
        settled := passedMark l (loadedParams body c).lead s (s.car c).sched.settled } } := by
    rw [passOver_same, hpar t ht, hk, passedMark_congr hw]
  unfold loadSite
  cases c
  all_goals
    simp only [passOver_keeps, ne_eq, reduceCtorEq, not_false_eq_true]
    exact hown _ _ (by simp [evalStoreLow, loadDelays]) (by simp [evalStoreLow, loadDelays]) (by simp [evalStoreLow, loadDelays])

/-- A carrier whose lead is not raised stands as it was. -/
theorem loadSite_car_kept (c : Carrier) (h : (loadedParams body c).lead ≤ (s.par c).lead) :
    (loadSite body s).car c = s.car c := by
  rw [loadSite_car, passedMark, if_neg (Nat.not_lt.2 h)]

end

/-! ### The clamps of a LOAD_SITE (R166) -/

theorem clampNat_eq_max_min {lo hi : Nat} (h : lo ≤ hi) (x : Nat) : clampNat lo hi x = max lo (min hi x) := by
  unfold clampNat
  split_ifs <;> omega

theorem clampNat_zero (hi x : Nat) : clampNat 0 hi x = min hi x := by
  rw [clampNat_eq_max_min (Nat.zero_le _), Nat.zero_max]

theorem markerSlotOf_val (n : Nat) : (markerSlotOf n).map Fin.val = if n = 255 then none else some (min 31 n) := by
  unfold markerSlotOf
  split
  · rfl
  · rw [Option.map_some, Fin.val_ofNat, Nat.mod_eq_of_lt (by omega), Nat.min_comm]

theorem loadedDelay_eq (body : List Byte) (c : Carrier) :
    loadedDelay body c = max 0 (min 2000000 (signedField body (siteOffset c + 13))) :=
  clampInt_eq_max_min (by decide) _

/-- No value of carrier `c` is replaced (R166). -/
theorem carrierClamped_false_iff (body : List Byte) (c : Carrier) : carrierClamped body c = false ↔
    field body (siteOffset c + 1) 2 ≤ 120 ∧ field body (siteOffset c + 3) 2 ≤ 500 ∧ field body (siteOffset c + 5) 2 ≤ 500 ∧
    field body (siteOffset c + 7) 1 ≤ 1 ∧ (field body (siteOffset c + 8) 1 ≤ 31 ∨ field body (siteOffset c + 8) 1 = 255) ∧
    field body (siteOffset c + 9) 1 ≤ 15 ∧ field body (siteOffset c + 10) 2 ≤ 2000 ∧
    0 ≤ signedField body (siteOffset c + 13) ∧ signedField body (siteOffset c + 13) ≤ 2000000 := by
  have hdelay : loadedDelay body c = signedField body (siteOffset c + 13) ↔
      0 ≤ signedField body (siteOffset c + 13) ∧ signedField body (siteOffset c + 13) ≤ 2000000 :=
    clampInt_eq_self_iff (by decide) _
  simp only [carrierClamped, Bool.or_eq_false_iff, Bool.and_eq_false_iff, decide_eq_false_iff_not, not_lt, not_not, ne_eq, hdelay,
    and_assoc]

/-- No value of the body is replaced (R166). -/
theorem siteClamped_false_iff (body : List Byte) : siteClamped body = false ↔
    (1 ≤ field body 0 2 ∧ field body 0 2 ≤ 1000) ∧ field body 2 2 ≤ 3600 ∧ field body 4 2 ≤ 2048 ∧ field body 6 2 ≤ 2048 ∧
      ∀ c, carrierClamped body c = false := by
  have hall : (∀ c, carrierClamped body c = false) ↔ carrierClamped body .c1 = false ∧ carrierClamped body .c2 = false ∧
      carrierClamped body .c3 = false ∧ carrierClamped body .c4 = false :=
    ⟨fun h => ⟨h _, h _, h _, h _⟩, fun ⟨h1, h2, h3, h4⟩ c => by cases c <;> assumption⟩
  simp only [siteClamped, Bool.or_eq_false_iff, decide_eq_false_iff_not, not_lt, hall, and_assoc]

theorem exec_loadSite {f : RxFrame} {s : State} (h : Takes 0x20 f s) (hl : 81 ≤ f.body.length) {a : Answer}
    (ha : ownerLoadSite f.body (requested 0x20 f s) = a) :
    exec (.loadSite f) s = .next (replied 0x20 f (replyOctet a.code) a.content a.state) :=
  congrArg Host.Outcome.next (takeRequest_owner h hl ownerLoadSite ha)

theorem ownerLoadSite_serving {s : State} (h : s.mgmt.service = .serving) (body : List Byte) :
    ownerLoadSite body s = Answer.refuse .notInService s := if_pos h

theorem ownerLoadSite_taken {s : State} (h : s.mgmt.service ≠ .serving) (body : List Byte) : ownerLoadSite body s =
    { code := if siteClamped body then .clamped else .ok, content := [], state := loadSite body s } := if_neg h

/-- With slot 0 of the next cycle settled, the current cycle is that one under any lead. -/
theorem currentCycle_slotSettled {c : Carrier} {s : State} {e : EpochNo} {g : Grid} (ht : timingAvailable s = true)
    (he : s.tracker.epoch = some e) (hg : s.tracker.next = some g) (h4 : (e + 1).toNat % 4 = 0)
    (h : unsettled c (slotAt (e + 1) 0 g) s = false) : currentCycle c s = some (BitVec.ofNat 30 ((e + 1).toNat / 4)) := by
  have hstart : slotStart (slotAt (e + 1) 0 g) = g.pred := by simp [slotStart, slotAt, gridStart, fxAdd]
  rw [unsettled, hstart, Bool.not_eq_false'] at h
  exact currentCycle_settled ht he hg (beq_iff_eq.2 h4) h

/-- Settles O56: the written record of parameters field by field, and the slots that a raised lead passes over. -/
theorem loadSiteWrites : Obligations.LoadSiteWrites := by
  unfold Obligations.LoadSiteWrites
  intro f s hf hl b
  let u := requested 0x20 f s
  refine ⟨fun hs => exec_loadSite hf hl (ownerLoadSite_serving (s := u) hs b), fun hs => ?_⟩
  have hrun := exec_loadSite hf hl (ownerLoadSite_taken (s := u) hs b)
  obtain ⟨htracker, hbatches, hprobe, hlink, hmgmt, halign, hstore⟩ := loadSite_same b u
  have hpar := loadSite_par b u
  have hcar := loadSite_car b u
  refine ⟨loadSite b u, replyOctet (if siteClamped b then .clamped else .ok), by rw [hrun], by rw [hmgmt], ?_, ?_, ?_, ?_,
    ?_, ?_, fun c => ?carrier, by rw [hstore, hmgmt]; rfl, by rw [halign]; rfl, htracker, hbatches, hprobe, hlink, ?_, ?_⟩
  · rw [hmgmt]; exact clampNat_eq_max_min (by decide) _
  · rw [hmgmt]; exact clampNat_zero _ _
  · rw [hmgmt]; exact clampNat_zero _ _
  · rw [hmgmt]; exact clampNat_zero _ _
  · rw [hmgmt]; rfl
  · rw [hmgmt]; rfl
  case carrier =>
    intro o
    have hdelay : (loadSite b u).align.delays.get c = { value := (loadedDelay b c).toNat, pending := none } := by
      rw [halign]; exact Quad.get_map _ _ _
    rw [hpar, hdelay]
    refine ⟨rfl, clampNat_zero _ _, clampNat_zero _ _, clampNat_zero _ _, rfl, markerSlotOf_val _, ?_, clampNat_zero _ _, rfl,
      ?_, rfl, by rw [hcar]; rfl, fun hle => ?_, fun hlt z hx hm hn sl hsl => ?_⟩
    · have hval := clampNat_zero 15 (field b (o + 9) 1)
      exact (Fin.val_ofNat 16 _).trans ((congrArg (· % 16) hval).trans (Nat.mod_eq_of_lt (by omega)))
    · rw [← show loadedDelay b c = max 0 (min 2000000 (signedField b (o + 13))) from loadedDelay_eq b c]
      exact Int.toNat_of_nonneg (clampInt_mem (by decide) _).1
    · have hkept : (loadSite b u).car c = s.car c := loadSite_car_kept b u c hle
      refine ⟨hkept, fun e g ht he hg h4 hset => ?_⟩
      refine currentCycle_slotSettled (by rw [timingAvailable, htracker]; exact ht) (by rw [htracker]; exact he)
        (by rw [htracker]; exact hg) h4 ?_
      rw [unsettled_eq, hkept]
      exact hset
    · rw [unsettled_eq, hcar]
      exact (congrArg (!·) (settledBy_passedMark hlt hm hx hn hsl)).trans (Bool.not_or _ _)
  · cases siteClamped b
    · exact .inl rfl
    · exact .inr rfl
  · have hcode : replyOctet (if siteClamped b then .clamped else .ok) = 0x00 ↔ siteClamped b = false := by
      cases siteClamped b <;> decide
    rw [hcode, siteClamped_false_iff]
    simp only [carrierClamped_false_iff]
    rfl

end Sys2Proof.Machine
end

section
/-! What an abort makes of the probe, and RESTART: what it clears and what stands (O58). -/

namespace Sys2Proof.Machine

open Sys2Proof.Safety

/-! ### The probe after an abort (R148) -/

/-- A probe that is not in LOAD_RETURN or OBSERVE, and runs, is in one of the phases before LOAD_RETURN. -/
theorem probePhase_cases (p : ProbePhase) : p = .idle ∨ p = .loadReturn ∨ p = .observe ∨ PathPhase p := by
  unfold PathPhase
  cases p <;> simp

theorem returnKey_probe (s : State) : (returnKey s).probe = s.probe := by simp

/-- What the abort of O11 and O15 makes of the probe. -/
theorem probeAborted_abortProbe (s : State) : ProbeAborted s (abortProbe s).probe := by
  refine ⟨fun h => by rw [abortProbe_stays h], fun ha => ⟨fun h => ?_, fun h => ?_, fun h hr => ?_⟩⟩
  · rw [abortProbe_loadReturn h ha, State.setProbe_probe]
  · rw [abortProbe_path h ha, State.setProbe_probe, returnKey_probe]
  · rw [abortProbe_observe h ha, endProbe_result hr, State.setProbe_probe]
    exact ⟨abortedRecord s.probe .observe, rfl, rfl, rfl, rfl, rfl, rfl, rfl⟩

/-- A probe that still runs after an abort is an aborting one in LOAD_RETURN (R148). -/
theorem abortProbe_running {s : State} (h : ProbeHoldsKey s) (hp : (abortProbe s).probe.phase ≠ .idle) :
    (abortProbe s).probe.phase = .loadReturn ∧ (abortProbe s).probe.aborting = true := by
  obtain ⟨-, habort⟩ := h
  cases ha : s.probe.aborting with
  | true =>
    rw [abortProbe_stays (.inr ha)]
    exact ⟨habort ha, ha⟩
  | false =>
    obtain hi | hl | ho | hpath := probePhase_cases s.probe.phase
    · exact absurd (by rw [abortProbe_stays (.inl hi), hi]) hp
    · rw [abortProbe_loadReturn hl ha]
      exact ⟨hl, rfl⟩
    · refine absurd ?_ hp
      rw [abortProbe_observe ho ha]
      unfold endProbe
      dsimp only
      split <;> rfl
    · rw [abortProbe_path hpath ha]
      exact ⟨rfl, rfl⟩

/-! ### RESTART (R175) -/

theorem exec_restart {f : RxFrame} {s : State} (h : Takes 0x22 f s) {a : Answer}
    (ha : ownerRestart f.body (requested 0x22 f s) = a) :
    exec (.restart f) s = .next (replied 0x22 f (replyOctet a.code) a.content a.state) :=
  congrArg Host.Outcome.next (takeRequest_owner h (Nat.zero_le _) ownerRestart ha)

theorem ownerRestart_unconfigured {s : State} (h : s.mgmt.service = .unconfigured) (body : List Byte) :
    ownerRestart body s = Answer.refuse .refusedState s := if_pos h

theorem ownerRestart_taken {s : State} (h : s.mgmt.service ≠ .unconfigured) (body : List Byte) :
    ownerRestart body s = { code := .ok, content := [], state := restartPart s } := if_neg h

/-- The release and the flush of a RESTART. -/
def restartFlush (s : State) : State := flushAll .noTiming (releaseAll (restartProbe s))

theorem restartPart_car (s : State) (c : Carrier) : (restartPart s).car c =
    { restartCarrier ((restartFlush s).car c) with counters := CarrierCounters.reset } := by
  simp [restartPart, restartFlush, evalStoreLow, clearCounters, modPart]

theorem restartPart_same (s : State) : (restartPart s).tracker = s.tracker ∧ (restartPart s).align = s.align ∧
    (restartPart s).link = s.link ∧ (restartPart s).probe = (restartProbe s).probe ∧
    (restartPart s).batches = (restartFlush s).batches ∧ (restartPart s).store.cells = (restartFlush s).store.cells ∧
    (restartPart s).store.freeCount = (restartFlush s).store.freeCount ∧
    (restartPart s).mgmt = { service := .configured, params := s.mgmt.params, alarms := 0, cause := .restart
                             counters := PartCounters.reset } := by
  simp [restartPart, restartFlush, evalStoreLow, clearCounters, modPart]

/-- What the flush of a RESTART leaves: no batch, no key, no run, no claim; the store all FREE (R79, R117). -/
theorem restartFlush_spec {s : State} (hs : Scheduled s) (hb : BlocksAccounted s) (hp : ProbeHoldsKey s) :
    (restartFlush s).batches = [] ∧ (restartFlush s).store.freeCount = 2048 ∧
    (∀ n, n < 2048 → (readBlock n (restartFlush s)).tag = .free) ∧
    ∀ c, EmptyMap ((restartFlush s).car c).maps.current ∧ EmptyMap ((restartFlush s).car c).maps.next ∧
      NoRuns ((restartFlush s).car c).timer ∧ ((restartFlush s).car c).key = .released ∧
      ((restartFlush s).car c).word = centreWord (activeWords c s) ∧
      ((restartFlush s).car c).power = (s.car c).power ∧
      ((restartFlush s).car c).sched.settled = (s.car c).sched.settled := by
  have hsched : Scheduled (releaseAll (restartProbe s)) :=
    releaseAll_both.1 (scheduled_congr (by simp) (by simp) (by simp) (by simp) (by simp) hs)
  have hblocks : BlocksAccounted (releaseAll (restartProbe s)) :=
    releaseAll_both.2 (blocksAccounted_congr (by simp) (by simp) hb)
  obtain ⟨-, hflushed, hplaces⟩ := flushAll_spec .noTiming hsched
  obtain ⟨hcount, hfree⟩ := blocksAccounted_emptied (hflushed hblocks) (flushAll_batches _ _)
  refine ⟨flushAll_batches _ _, hcount, hfree, fun c => ?_⟩
  obtain ⟨hcurrent, hnext, -⟩ := hplaces c
  have hkey : ((restartProbe s).car c).key ≠ .probe := by simpa [restartProbe] using abortProbe_spec hp c
  obtain ⟨hreleased, hruns, hword, -⟩ := (releaseAll_spec (restartProbe s) c).2 hkey
  refine ⟨hcurrent, hnext, flushAll_noRuns _ hruns, ?_, ?_, by simp [restartFlush], by simp [restartFlush]⟩
  · simp [restartFlush, hreleased]
  · simp [restartFlush, hword, activeWords, activeRecord]

/-- Settles O58: the abort, the release of every key and the flush of the table leave nothing of the traffic. -/
theorem restartClears : Obligations.RestartClears := by
  unfold Obligations.RestartClears
  intro f s hf hsched hblocks hkey
  let u := requested 0x22 f s
  refine ⟨fun hs => exec_restart hf (ownerRestart_unconfigured (s := u) hs f.body), fun hs => ?_⟩
  obtain ⟨hbatches, hcount, hfree, hcars⟩ := restartFlush_spec (s := u)
    (scheduled_congr (s := s) (by simp [u]) (by simp [u]) (by simp [u]) (by simp [u]) (by simp [u]) hsched)
    (blocksAccounted_congr (s := s) (by simp [u]) (by simp [u]) hblocks) hkey
  obtain ⟨htracker, halign, hlink, hprobe, hb, hcells, hfreeCount, hmgmt⟩ := restartPart_same u
  refine ⟨restartPart u, exec_restart hf (ownerRestart_taken (s := u) hs f.body), hb.trans hbatches, hfreeCount.trans hcount,
    fun n hn => ?_, hmgmt, ?_, ?_, ?_, fun hphase => ?_, htracker, halign, hlink, fun c => ?_⟩
  · rw [readBlock, hcells]
    exact hfree n hn
  · rw [hprobe]; rfl
  · rw [hprobe]; rfl
  · rw [hprobe]; rfl
  · rw [hprobe] at hphase ⊢
    obtain ⟨hreturn, haborting⟩ := abortProbe_running (s := u) hkey hphase
    refine ⟨hreturn, haborting, ?_⟩
    simp [restartProbe, Probe.busy, hreturn]
  · obtain ⟨hcurrent, hnext, hruns, hreleased, hword, hpower, hsettled⟩ := hcars c
    rw [restartPart_car]
    exact ⟨⟨hcurrent, hnext, hruns, rfl, rfl, rfl⟩, hreleased, hword, rfl, rfl, outcomes_reset, rfl, rfl, rfl, rfl, rfl,
      hsettled, rfl, hpower⟩

end Sys2Proof.Machine
end

section
/-! Epoch starts that make reports or renumber: what is offered to the own queue, what is cleared (O17, O18). -/

namespace Sys2Proof.Machine

open Sys2Proof.Safety

/-! ### Frames offered to the own queue (R159) -/

/-- The own queue and its drop counter. -/
def ownQueue (s : State) : List Frame × BitVec 16 := (s.link.own, s.mgmt.counters.ownDrops)

/-- A frame offered to a queue of at most 8 frames with a drop counter. -/
def offerTo (q : List Frame × BitVec 16) (f : Frame) : List Frame × BitVec 16 :=
  if q.1.length < 8 then (q.1 ++ [f], q.2) else (q.1, satInc q.2)

theorem ownQueue_offerOwn (f : Frame) (s : State) : ownQueue (offerOwn f s) = offerTo (ownQueue s) f := by
  unfold offerTo
  split
  · next h => rw [offerOwn_room h]; simp [ownQueue]
  · next h => rw [offerOwn_full (Nat.not_lt.1 h)]; rfl

theorem siteAddress_offerOwn (f : Frame) (s : State) : (offerOwn f s).link.siteAddress = s.link.siteAddress := by
  unfold offerOwn
  split <;> simp [countOwnDrop, modPart]

theorem satInc_toNat (x : BitVec 16) : (satInc x).toNat = min 65535 (x.toNat + 1) := by
  rw [satInc_eq]
  split <;> bv_omega

/-- Frames offered one after the other: the queue takes what it has room for, the rest counts as dropped. -/
theorem foldl_offerTo (fs : List Frame) {q : List Frame × BitVec 16} (h : q.1.length ≤ 8) :
    (fs.foldl offerTo q).1 = (q.1 ++ fs).take 8 ∧
      (fs.foldl offerTo q).2.toNat = min 65535 (q.2.toNat + (q.1.length + fs.length - 8)) := by
  induction fs generalizing q with
  | nil =>
    have := q.2.isLt
    refine ⟨by rw [List.append_nil, List.take_of_length_le h]; rfl, ?_⟩
    simp only [List.foldl_nil, List.length_nil]
    omega
  | cons f fs ih =>
    rw [List.foldl_cons]
    by_cases hq : q.1.length < 8
    · have hstep : offerTo q f = (q.1 ++ [f], q.2) := if_pos hq
      obtain ⟨hown, hdrops⟩ := ih (q := offerTo q f) (by rw [hstep, List.length_append]; exact hq)
      rw [hown, hdrops, hstep, List.append_assoc]
      refine ⟨rfl, ?_⟩
      simp only [List.length_append, List.length_cons, List.length_nil]
      omega
    · have hstep : offerTo q f = (q.1, satInc q.2) := if_neg hq
      obtain ⟨hown, hdrops⟩ := ih (q := offerTo q f) (by rw [hstep]; exact h)
      have hfull : q.1.length = 8 := by omega
      rw [hown, hdrops, hstep, satInc_toNat]
      refine ⟨by rw [List.take_append_of_le_length hfull.ge, List.take_append_of_le_length hfull.ge], ?_⟩
      simp only [List.length_cons]
      omega

/-! ### The report of one carrier (R103) -/

/-- The state with the open slots of cycle `n` of carrier `c` recorded. -/
def withRecorded (c : Carrier) (n : CycleNo) (s : State) : State :=
  s.modCar c fun k => { k with sched := { k.sched with
    outcomes := (k.sched.openSlots.filter fun o => o.slot.cycle = n).foldl OutcomeArray.record k.sched.outcomes } }

/-- The report that carrier `c` makes at a cycle start, if it makes one. -/
def carrierReport (c : Carrier) (s : State) : Option Frame :=
  (s.car c).sched.outcomes.label.bind fun n =>
    if (s.par c).reports = true then some (reportFrame c n (withRecorded c n s)) else none

theorem carrierReport_isSome (c : Carrier) (s : State) :
    (carrierReport c s).isSome = ((s.car c).sched.outcomes.label.isSome && (s.par c).reports) := by
  unfold carrierReport
  cases (s.car c).sched.outcomes.label <;> cases (s.par c).reports <;> simp

/-- What a report is formed from, besides the outcome array. -/
def ReportsAlike (s t : State) : Prop :=
  t.link.siteAddress = s.link.siteAddress ∧ t.mgmt.alarms = s.mgmt.alarms ∧ t.mgmt.params = s.mgmt.params ∧
    t.store.low = s.store.low

theorem ReportsAlike.refl (s : State) : ReportsAlike s s := ⟨rfl, rfl, rfl, rfl⟩

theorem ReportsAlike.trans {s t u : State} (h : ReportsAlike s t) (h' : ReportsAlike t u) : ReportsAlike s u :=
  ⟨h'.1.trans h.1, h'.2.1.trans h.2.1, h'.2.2.1.trans h.2.2.1, h'.2.2.2.trans h.2.2.2⟩

theorem reportFrame_congr {s t : State} (h : ReportsAlike s t) {c : Carrier}
    (ho : (t.car c).sched.outcomes = (s.car c).sched.outcomes) (n : CycleNo) : reportFrame c n t = reportFrame c n s := by
  obtain ⟨hsite, halarms, hparams, hlow⟩ := h
  unfold reportFrame flagsOctet attention
  rw [hsite, halarms, hparams, hlow, ho]

theorem reportsAlike_withRecorded (c : Carrier) (n : CycleNo) (s : State) : ReportsAlike s (withRecorded c n s) :=
  ⟨rfl, rfl, rfl, rfl⟩

theorem withRecorded_outcomes (c : Carrier) (n : CycleNo) (s : State) : ((withRecorded c n s).car c).sched.outcomes =
    ((s.car c).sched.openSlots.filter fun o => o.slot.cycle = n).foldl OutcomeArray.record (s.car c).sched.outcomes := by
  simp [withRecorded]

theorem carrierReport_congr {s t : State} (h : ReportsAlike s t) {c : Carrier}
    (ho : (t.car c).sched.outcomes = (s.car c).sched.outcomes) (hs : (t.car c).sched.openSlots = (s.car c).sched.openSlots) :
    carrierReport c t = carrierReport c s := by
  have hframe (n : CycleNo) : reportFrame c n (withRecorded c n t) = reportFrame c n (withRecorded c n s) :=
    reportFrame_congr (s := withRecorded c n s) (t := withRecorded c n t) h
      (by rw [withRecorded_outcomes, withRecorded_outcomes, ho, hs]) n
  unfold carrierReport
  simp only [ho, State.par, h.2.2.1, hframe]
  rfl

/-- Slots recorded under their own label leave it. -/
theorem foldl_record_label {n : CycleNo} (os : List OpenSlot) {a : OutcomeArray} (hl : a.label = some n) :
    (os.foldl OutcomeArray.record a).label = some n := by
  induction os generalizing a with
  | nil => exact hl
  | cons o os ih =>
    refine ih ?_
    unfold OutcomeArray.record
    split
    · next h => rw [hl] at h; exact congrArg some h.symm
    · exact hl

/-- The report a carrier sends with its array as it now stands, if it sends one. -/
def sentReport (c : Carrier) (s : State) : Option Frame :=
  (s.car c).sched.outcomes.label.bind fun n => if (s.par c).reports = true then some (reportFrame c n s) else none

theorem sendReport_offers (c : Carrier) (s : State) :
    sendReport c s = (sentReport c s).toList.foldl (fun t f => offerOwn f t) s := by
  unfold sendReport sentReport
  cases (s.car c).sched.outcomes.label with
  | none => rfl
  | some n => cases (s.par c).reports <;> simp

theorem ownQueue_sendReport (c : Carrier) (s : State) :
    ownQueue (sendReport c s) = (sentReport c s).toList.foldl offerTo (ownQueue s) := by
  rw [sendReport_offers]
  cases sentReport c s with
  | none => rfl
  | some f => exact ownQueue_offerOwn f s

theorem siteAddress_sendReport (c : Carrier) (s : State) : (sendReport c s).link.siteAddress = s.link.siteAddress := by
  rw [sendReport_offers]
  cases sentReport c s with
  | none => rfl
  | some f => exact siteAddress_offerOwn f s

/-- The state in which carrier `c` sends its report: its slots of the cycle recorded, at a renumbering no slot left open. -/
def reporting (c : Carrier) (r : Bool) (s : State) : State :=
  let p : OpenSlot → Bool := fun o => some o.slot.cycle = (s.car c).sched.outcomes.label
  let t := recordSlots c p (noteClosed c p s)
  if r then modSched c (fun x => { x with openSlots := [] }) t else t

theorem reportCycle_eq (c : Carrier) (e : EpochNo) (r : Bool) (s : State) :
    reportCycle c e r s = relabel c e (sendReport c (reporting c r s)) := rfl

theorem reporting_outcomes (c : Carrier) (r : Bool) (s : State) : ((reporting c r s).car c).sched.outcomes =
    ((s.car c).sched.openSlots.filter fun o => some o.slot.cycle = (s.car c).sched.outcomes.label).foldl OutcomeArray.record
      (s.car c).sched.outcomes := by
  unfold reporting
  cases r <;> simp [recordSlots, modSched]

theorem reporting_same (c : Carrier) (r : Bool) (s : State) : ReportsAlike s (reporting c r s) ∧
    ownQueue (reporting c r s) = ownQueue s ∧ (reporting c r s).link = s.link := by
  unfold reporting
  cases r <;> simp [ReportsAlike, ownQueue]

/-- What a carrier sends at a cycle start is its report with the open slots of the cycle recorded. -/
theorem sentReport_reporting (c : Carrier) (r : Bool) (s : State) : sentReport c (reporting c r s) = carrierReport c s := by
  obtain ⟨halike, -⟩ := reporting_same c r s
  have ho := reporting_outcomes c r s
  have hpar : (reporting c r s).par c = s.par c := by rw [State.par, halike.2.2.1, State.par]
  unfold sentReport carrierReport
  cases hl : (s.car c).sched.outcomes.label with
  | none =>
    rw [hl] at ho
    simp only [reduceCtorEq, decide_false, List.filter_false, List.foldl_nil] at ho
    rw [ho, hl]
    rfl
  | some n =>
    rw [hl] at ho
    simp only [Option.some.injEq] at ho
    have hlabel : ((reporting c r s).car c).sched.outcomes.label = some n := by rw [ho]; exact foldl_record_label _ hl
    rw [hlabel, Option.bind_some, Option.bind_some, hpar, reportFrame_congr (s := withRecorded c n s)
      (t := reporting c r s) halike (by rw [ho, withRecorded_outcomes])]

/-- Carrier `c` at a cycle start: its report is offered, its array cleared and labelled, at a renumbering no slot left open. -/
theorem reportCycle_spec (c : Carrier) (e : EpochNo) (r : Bool) (s : State) :
    ReportsAlike s (reportCycle c e r s) ∧
    ownQueue (reportCycle c e r s) = (carrierReport c s).toList.foldl offerTo (ownQueue s) ∧
    ((reportCycle c e r s).car c).sched.outcomes = { OutcomeArray.reset with label := some (cycleOf e) } ∧
    (r = true → ((reportCycle c e r s).car c).sched.openSlots = []) := by
  obtain ⟨⟨hsite, halarms, hparams, hlow⟩, hqueue, hlink⟩ := reporting_same c r s
  rw [reportCycle_eq]
  refine ⟨⟨?_, by simp [halarms], by simp [hparams], by simp [hlow]⟩, ?_, by simp [relabel, modSched], fun hr => ?_⟩
  · rw [(relabel_keeps _ _ _).2.2.2.2.2.1, siteAddress_sendReport, hsite]
  · have : ownQueue (relabel c e (sendReport c (reporting c r s))) = ownQueue (sendReport c (reporting c r s)) := by
      simp [ownQueue]
    rw [this, ownQueue_sendReport, sentReport_reporting, hqueue]
  · subst hr
    simp [reporting, modSched]

/-! ### The reports of all carriers -/

/-- The carriers in the order of their reports. -/
def carriersInOrder : List Carrier := [.c1, .c2, .c3, .c4]

/-- The four carriers at a cycle start: the reports are offered in carrier order. -/
theorem reportCycles_spec (e : EpochNo) (r : Bool) (s : State) :
    ownQueue (reportCycles e r s) = (carriersInOrder.filterMap fun c => carrierReport c s).foldl offerTo (ownQueue s) ∧
    ∀ c, ((reportCycles e r s).car c).sched.outcomes = { OutcomeArray.reset with label := some (cycleOf e) } ∧
      (r = true → ((reportCycles e r s).car c).sched.openSlots = []) := by
  obtain ⟨a1, q1, h1⟩ := reportCycle_spec .c1 e r s
  obtain ⟨a2, q2, h2⟩ := reportCycle_spec .c2 e r (reportCycle .c1 e r s)
  obtain ⟨a3, q3, h3⟩ := reportCycle_spec .c3 e r (reportCycle .c2 e r (reportCycle .c1 e r s))
  obtain ⟨-, q4, h4⟩ := reportCycle_spec .c4 e r (reportCycle .c3 e r (reportCycle .c2 e r (reportCycle .c1 e r s)))
  have r2 := carrierReport_congr a1 (c := .c2) (by simp) (by simp)
  have r3 := carrierReport_congr (a1.trans a2) (c := .c3) (by simp) (by simp)
  have r4 := carrierReport_congr ((a1.trans a2).trans a3) (c := .c4) (by simp) (by simp)
  refine ⟨?_, fun c => ?_⟩
  · unfold reportCycles
    rw [q4, q3, q2, q1, r2, r3, r4]
    have hlist : (carriersInOrder.filterMap fun c => carrierReport c s) = (carrierReport .c1 s).toList ++
        ((carrierReport .c2 s).toList ++ ((carrierReport .c3 s).toList ++ (carrierReport .c4 s).toList)) := by
      simp only [carriersInOrder, List.filterMap_cons, List.filterMap_nil]
      cases carrierReport .c1 s <;> cases carrierReport .c2 s <;> cases carrierReport .c3 s <;> cases carrierReport .c4 s <;> rfl
    rw [hlist, List.foldl_append, List.foldl_append, List.foldl_append]
  · unfold reportCycles
    cases c
    · simpa using h1
    · simpa using h2
    · simpa using h3
    · exact h4

/-! ### What completes a start that makes reports -/

/-- The state of an epoch start once its number is taken and a renumbering has flushed. -/
def numbered (u : State) : State :=
  let t := modTracker Tracker.takeNumber u
  if u.tracker.renumbers then renumberingFlush t else t

theorem numbered_same (u : State) : (numbered u).tracker = u.tracker.takeNumber ∧ ownQueue (numbered u) = ownQueue u ∧
    (numbered u).link = u.link ∧ (numbered u).mgmt.params = u.mgmt.params ∧
    ∀ c, ((numbered u).car c).sched.outcomes = (u.car c).sched.outcomes := by
  unfold numbered
  split <;> simp [modTracker, ownQueue]

theorem numbered_kept {u : State} (h : u.tracker.renumbers = false) : numbered u = modTracker Tracker.takeNumber u := by
  simp [numbered, h]

theorem numbered_flushed {u : State} (h : u.tracker.renumbers = true) :
    numbered u = renumberingFlush (modTracker Tracker.takeNumber u) := by
  simp [numbered, h]

/-- A start that renumbers or takes a multiple of 4 makes reports. -/
theorem completeStart_reports {u : State} {m : EpochNo} (hm : u.tracker.takeNumber.epoch = some m)
    (h : u.tracker.renumbers = true ∨ m.toNat % 4 = 0) :
    completeStart u = bringAllMaps (reportCycles m u.tracker.renumbers (numbered u)) := by
  have hr : (u.tracker.renumbers || startsCycle m) = true := by
    rw [Bool.or_eq_true]
    exact h.imp_right fun h4 => by simp [startsCycle, h4]
  have he : (numbered u).tracker.epoch = some m := by rw [(numbered_same u).1, hm]
  have hs : startReports u.tracker.renumbers (numbered u) = reportCycles m u.tracker.renumbers (numbered u) := by
    unfold startReports
    rw [he]
    exact if_pos hr
  rw [← hs]
  rfl

/-- Any other start makes none. -/
theorem completeStart_plain {u : State} (hr : u.tracker.renumbers = false)
    (hm : ∀ m, u.tracker.takeNumber.epoch = some m → m.toNat % 4 ≠ 0) :
    completeStart u = bringAllMaps (modTracker Tracker.takeNumber u) := by
  have hs : startReports u.tracker.renumbers (numbered u) = numbered u := by
    unfold startReports
    split
    · next e he =>
      rw [(numbered_same u).1] at he
      simp [hr, startsCycle, hm e he]
    · rfl
  rw [← numbered_kept hr, ← hs]
  rfl

/-- The count of h at a HOLDOVER start. -/
theorem holdOver_h {s : State} (h : s.tracker.windowPassed = true) :
    s.tracker.holdOver.h = if s.tracker.ref = .locked then 1 else s.tracker.h + 1 := by
  obtain ⟨g, hg⟩ := windowPassed_next h
  rw [holdOver_fields hg]

/-- Settles O18: each start that does not expire completes a state with the outcomes, links and counters of `s`. -/
theorem cycleReportsSent : Obligations.CycleReportsSent := by
  unfold Obligations.CycleReportsSent
  intro e s m hstart hnumber hreports hheld
  obtain ⟨u, hexec, hnums, -, hstore, hcarriers, -, hlink, -, hparams, hcounters⟩ | ⟨rfl, hexpires, -⟩ := startsEpoch_cases hstart
  case inr =>
    obtain ⟨hpulse, -⟩ | ⟨-, hpassed⟩ := hstart
    · cases hpulse
    · have := hheld rfl
      rw [holdOver_h hpassed] at hexpires
      omega
  have hm : u.tracker.takeNumber.epoch = some m := by rw [hnums.takes.1, takeNumber_epoch, hnumber]
  have hcar (c : Carrier) : u.car c = s.car c := by rw [State.car, hcarriers, State.car]
  have hpar (c : Carrier) : u.par c = s.par c := by rw [State.par, hparams, State.par]
  rw [← hnums.renumbers] at hreports ⊢
  have hcomplete := completeStart_reports hm hreports
  obtain ⟨-, hqueue, hnlink, hnparams, houtcomes⟩ := numbered_same u
  obtain ⟨hown, hcars⟩ := reportCycles_spec m u.tracker.renumbers (numbered u)
  refine ⟨_, hexec, fun c => ?_, fun hlen => ?_⟩
  · rw [hcomplete, (bringAllMaps_car _ c).2.2.2.2.2.2.2.2.2.2.2.1, (hcars c).1]
    exact ⟨rfl, outcomes_reset⟩
  have hqueues : ownQueue (completeStart u) = (carriersInOrder.filterMap fun c => carrierReport c (numbered u)).foldl offerTo
      (ownQueue s) := by
    have hbring : ownQueue (completeStart u) = ownQueue (reportCycles m u.tracker.renumbers (numbered u)) := by
      rw [hcomplete]; simp [ownQueue]
    have hs : ownQueue u = ownQueue s := by rw [ownQueue, hlink, hcounters]; rfl
    rw [hbring, hown, hqueue, hs]
  have hcount : (carriersInOrder.filterMap fun c => carrierReport c (numbered u)).length =
      (carriersInOrder.filter fun c => (s.car c).sched.outcomes.label.isSome && (s.par c).reports).length := by
    rw [List.length_filterMap_eq_countP, List.countP_eq_length_filter]
    refine congrArg List.length (List.filter_congr fun c _ => ?_)
    rw [carrierReport_isSome, houtcomes, hcar, State.par, hnparams]
    exact congrArg _ (congrArg CarrierParams.reports (hpar c))
  obtain ⟨hfirst, hsecond⟩ := foldl_offerTo (carriersInOrder.filterMap fun c => carrierReport c (numbered u)) (q := ownQueue s) hlen
  rw [← hqueues] at hfirst hsecond
  rw [hcount] at hsecond
  intro n
  refine ⟨?_, hsecond, fun hr => ?_⟩
  · rw [show (completeStart u).link.own = (ownQueue (completeStart u)).1 from rfl, hfirst, List.length_take, List.length_append, hcount]
    rfl
  · have hkept := numbered_kept hr
    have hparams' : (completeStart u).mgmt.params = s.mgmt.params := by simp [hparams]
    have halike : ReportsAlike (s.setMgmt (completeStart u).mgmt) (numbered u) := by
      refine ⟨?_, ?_, ?_, ?_⟩
      · rw [hnlink, hlink]; rfl
      · rw [hkept, State.setMgmt_mgmt, completeStart_alarms, hr]
        simp [modTracker]
      · rw [hnparams, hparams]; exact hparams'.symm
      · rw [hkept, modTracker, State.setTracker_store, hstore]; rfl
    refine hfirst.trans (congrArg (fun fs => (s.link.own ++ fs).take 8) (List.filterMap_congr fun c _ => ?_))
    rw [carrierReport_congr halike ((houtcomes c).trans (by rw [hcar]; rfl)) (by rw [hkept, modTracker]; simp [hcar])]
    unfold carrierReport
    rw [show (s.setMgmt (completeStart u).mgmt).par c = s.par c from congrArg (fun p => p.carriers.get c) hparams']
    rfl

end Sys2Proof.Machine
end

section
/-! The slots recorded at an epoch start, a clock loss and an expiry, and what a renumbering, a clock loss and an expiry leave
(O11, O15, O17). -/

namespace Sys2Proof.Machine

open Sys2Proof.Safety

/-! ### Maps brought up to date with no claim standing (R62) -/

theorem claimIds_empty {m : ClaimMap} (h : EmptyMap m) : claimIds m = [] := by
  refine List.filterMap_eq_nil_iff.2 fun x hx => ?_
  obtain ⟨i, hi, rfl⟩ := List.getElem_of_mem hx
  have := h ⟨i, by simpa using hi⟩
  simpa [Vector.get_eq_getElem] using this

/-- With no claim standing, bringing maps up to date changes no more than the maps, and leaves them empty. -/
theorem bringMaps_emptied {c : Carrier} {s : State} (hc : EmptyMap (s.car c).maps.current) (hn : EmptyMap (s.car c).maps.next) :
    ∃ m : ClaimMaps, bringMaps c s = setMaps c m s ∧ EmptyMap m.current ∧ EmptyMap m.next := by
  have hself : s = setMaps c (s.car c).maps s := (s.setCar_self c).symm
  unfold bringMaps
  split
  · exact ⟨_, hself, hc, hn⟩
  · dsimp only
    rw [claimIds_empty hc, claimIds_empty hn]
    split_ifs
    · exact ⟨_, hself, hc, hn⟩
    · exact ⟨_, rfl, hn, emptyMap_empty⟩
    · exact ⟨_, rfl, emptyMap_empty, emptyMap_empty⟩

/-- A state that differs from `s` in the claim maps alone, all of them empty. -/
def OnlyMaps (s t : State) : Prop :=
  t.batches = s.batches ∧ t.store = s.store ∧
    ∀ c, ∃ m : ClaimMaps, t.car c = { s.car c with maps := m } ∧ EmptyMap m.current ∧ EmptyMap m.next

theorem onlyMaps_bringMaps {s t : State} (h : OnlyMaps s t) (c : Carrier) : OnlyMaps s (bringMaps c t) := by
  obtain ⟨hb, hs, hcars⟩ := h
  obtain ⟨m, hm, hmc, hmn⟩ := hcars c
  obtain ⟨m', hbring, hc, hn⟩ := bringMaps_emptied (c := c) (s := t) (by rw [hm]; exact hmc) (by rw [hm]; exact hmn)
  rw [hbring]
  refine ⟨by simp [hb], by simp [hs], fun d => ?_⟩
  by_cases hd : d = c
  · subst hd
    exact ⟨m', by simp [setMaps, hm], hc, hn⟩
  · obtain ⟨k, hk, hkc, hkn⟩ := hcars d
    exact ⟨k, by rw [(setMaps_keeps c m' t).2.2.2.2.2.2.2.2.2.2.2 d hd, hk], hkc, hkn⟩

theorem onlyMaps_bringAllMaps {s : State} (h : ∀ c, EmptyMap (s.car c).maps.current ∧ EmptyMap (s.car c).maps.next) :
    OnlyMaps s (bringAllMaps s) :=
  onlyMaps_bringMaps (onlyMaps_bringMaps (onlyMaps_bringMaps (onlyMaps_bringMaps
    ⟨rfl, rfl, fun c => ⟨(s.car c).maps, rfl, h c⟩⟩ .c1) .c2) .c3) .c4

/-! ### A renumbering (R15, R78, R105) -/

/-- What a start that renumbers leaves: no batch, the store all FREE, no claim, no slot, the arrays cleared under the new
label. -/
theorem completeStart_renumbered {u : State} {n : EpochNo} (hs : Scheduled u) (hb : BlocksAccounted u)
    (hr : u.tracker.renumbers = true) (hn : u.tracker.takeNumber.epoch = some n) :
    (completeStart u).batches = [] ∧ (completeStart u).store.freeCount = 2048 ∧
    ∀ c, EmptyMap ((completeStart u).car c).maps.current ∧ EmptyMap ((completeStart u).car c).maps.next ∧
      ((completeStart u).car c).sched.onAir = none ∧ ((completeStart u).car c).sched.incoming = none ∧
      ((completeStart u).car c).sched.stack = [] ∧ ((completeStart u).car c).sched.openSlots = [] ∧
      ((completeStart u).car c).sched.outcomes = { OutcomeArray.reset with label := some (cycleOf n) } ∧
      ((u.car c).key ≠ .probe → ((completeStart u).car c).key = .released ∧ NoRuns ((completeStart u).car c).timer) := by
  have hs' : Scheduled (modTracker Tracker.takeNumber u) := scheduled_congr (by simp) (by simp) (by simp) (by simp) (by simp) hs
  have hb' : BlocksAccounted (modTracker Tracker.takeNumber u) := blocksAccounted_congr (by simp) (by simp) hb
  obtain ⟨hbatches, hstore, -, -, -, hcars⟩ := renumberingFlush_spec hs'
  obtain ⟨hcount, -⟩ := hstore hb'
  rw [← numbered_flushed hr] at hbatches hcount hcars
  obtain ⟨-, hreported⟩ := reportCycles_spec n u.tracker.renumbers (numbered u)
  have hmaps (c : Carrier) : EmptyMap ((reportCycles n u.tracker.renumbers (numbered u)).car c).maps.current ∧
      EmptyMap ((reportCycles n u.tracker.renumbers (numbered u)).car c).maps.next := by
    obtain ⟨hcur, hnext, -⟩ := hcars c
    simpa using ⟨hcur, hnext⟩
  obtain ⟨hbatches', hstore', hmaps'⟩ := onlyMaps_bringAllMaps hmaps
  rw [← completeStart_reports hn (.inl hr)] at hbatches' hstore' hmaps'
  refine ⟨by simpa [hbatches'] using hbatches, by simpa [hstore'] using hcount, fun c => ?_⟩
  obtain ⟨-, -, hair, hinc, hstack, hkey⟩ := hcars c
  obtain ⟨m, hm, hmc, hmn⟩ := hmaps' c
  obtain ⟨houtcomes, hopen⟩ := hreported c
  rw [hm]
  exact ⟨hmc, hmn, by simpa using hair, by simpa using hinc, by simpa using hstack, hopen hr, houtcomes,
    fun hk => by simpa using hkey (by simpa using hk)⟩

/-! ### Every open slot recorded (R104) -/

theorem recordSlots_sched (c : Carrier) (p : OpenSlot → Bool) (s : State) :
    ((recordSlots c p s).car c).sched = { (s.car c).sched with
      outcomes := ((s.car c).sched.openSlots.filter p).foldl OutcomeArray.record (s.car c).sched.outcomes
      openSlots := (s.car c).sched.openSlots.filter fun o => !p o } := by
  simp [recordSlots, modSched]

theorem recordAllOpen_sched (s : State) (c : Carrier) : ((recordAllOpen s).car c).sched = { (s.car c).sched with
    outcomes := (s.car c).sched.openSlots.foldl OutcomeArray.record (s.car c).sched.outcomes, openSlots := [] } := by
  have hall (d : Carrier) (t : State) : ((recordSlots d (fun _ => true) t).car d).sched = { (t.car d).sched with
      outcomes := (t.car d).sched.openSlots.foldl OutcomeArray.record (t.car d).sched.outcomes, openSlots := [] } := by
    simp [recordSlots_sched]
  unfold recordAllOpen
  cases c <;> simp [hall]

theorem recordSlots_nil {c : Carrier} {s : State} (h : (s.car c).sched.openSlots = []) (p : OpenSlot → Bool) :
    recordSlots c p s = s := by
  have hx : ({ (s.car c).sched with
      outcomes := ((s.car c).sched.openSlots.filter p).foldl OutcomeArray.record (s.car c).sched.outcomes
      openSlots := (s.car c).sched.openSlots.filter fun o => !p o } : Scheduler) = (s.car c).sched := by
    rw [h, List.filter_nil, List.filter_nil, List.foldl_nil, ← h]
  exact (congrArg (fun x => s.setCar c { s.car c with sched := x }) hx).trans (s.setCar_self c)

/-- With no slot open there is none to record. -/
theorem recordAllOpen_nil {s : State} (h : ∀ c, (s.car c).sched.openSlots = []) : recordAllOpen s = s := by
  unfold recordAllOpen
  rw [recordSlots_nil (h .c1), recordSlots_nil (h .c2), recordSlots_nil (h .c3), recordSlots_nil (h .c4)]

/-! ### The expiry of holdover (R13) -/

theorem expireHoldover_cycle {s : State} (h : s.tracker.startsCycleNext = true) : expireHoldover s =
    recordAllOpen (completeStart (modTracker Tracker.expire (latch .holdoverExpired (timingLoss s)))) := if_pos h

theorem expireHoldover_plain {s : State} (h : s.tracker.startsCycleNext = false) : expireHoldover s =
    completeStart (modTracker Tracker.expire (recordAllOpen (latch .holdoverExpired (timingLoss s)))) := by
  simp [expireHoldover, h]

/-- The state that an expiry completes, before or after its open slots are recorded. -/
structure ExpiredFrom (s v : State) : Prop where
  tracker : v.tracker = s.tracker.expire
  align : v.align = s.align
  alarms : v.mgmt.alarms = s.mgmt.alarms ||| 4
  batches : v.batches = (timingLoss s).batches
  store : v.store = (timingLoss s).store
  probe : v.probe = (timingLoss s).probe
  places : ∀ c, (v.car c).maps = ((timingLoss s).car c).maps ∧ (v.car c).sched.onAir = ((timingLoss s).car c).sched.onAir ∧
    (v.car c).sched.incoming = ((timingLoss s).car c).sched.incoming ∧
    (v.car c).sched.stack = ((timingLoss s).car c).sched.stack
  lines : ∀ c, (v.car c).timer = ((timingLoss s).car c).timer ∧ (v.car c).key = ((timingLoss s).car c).key ∧
    (v.car c).power = (s.car c).power ∧ (v.car c).marker = (s.car c).marker

theorem expiredFrom_open (s : State) : ExpiredFrom s (modTracker Tracker.expire (latch .holdoverExpired (timingLoss s))) := by
  constructor <;> simp [modTracker, latch, Alarm.mask, Alarm.bit]

theorem expiredFrom_recorded (s : State) :
    ExpiredFrom s (modTracker Tracker.expire (recordAllOpen (latch .holdoverExpired (timingLoss s)))) := by
  constructor <;> simp [modTracker, latch, Alarm.mask, Alarm.bit]

theorem expireHoldover_completes (s : State) : ∃ v, ExpiredFrom s v ∧
    (expireHoldover s = completeStart v ∨ expireHoldover s = recordAllOpen (completeStart v)) := by
  cases h : s.tracker.startsCycleNext with
  | true => exact ⟨_, expiredFrom_open s, .inr (expireHoldover_cycle h)⟩
  | false => exact ⟨_, expiredFrom_recorded s, .inl (expireHoldover_plain h)⟩

/-- Settles O17: an expiry renumbers a state that it has emptied already. -/
theorem renumberingFlushes : Obligations.RenumberingFlushes := by
  unfold Obligations.RenumberingFlushes
  intro e s p n hstart hpending hepoch hkind hnumber hs hb
  have hr : s.tracker.renumbers = true := by simpa [Tracker.renumbers, hpending, hepoch, hkind] using hnumber
  have htaken : s.tracker.takeNumber.epoch = some p.number := by simp [Tracker.takeNumber, hpending]
  have halarm (a : BitVec 32) : (a ||| 16) &&& 16 = 16 := by
    ext i
    simp only [BitVec.getElem_and, BitVec.getElem_or]
    cases (16 : BitVec 32)[i] <;> simp
  have hbits (u : State) (hu : u.tracker.renumbers = true) : (completeStart u).mgmt.alarms &&& 16 = 16 := by
    rw [completeStart_alarms, if_pos hu, halarm]
  have hlabels (a : OutcomeArray) (ha : a = { OutcomeArray.reset with label := some (cycleOf p.number) }) :
      a.label = some (cycleOf p.number) ∧ ∀ i : Fin 32, a.entries.get i = none := by
    rw [ha]
    exact ⟨rfl, outcomes_reset⟩
  obtain ⟨u, hexec, hnums, hbatches, hstore, hcarriers, halign, -⟩ | ⟨-, -, hexec⟩ := startsEpoch_cases hstart
  · have hcar (c : Carrier) : u.car c = s.car c := by rw [State.car, hcarriers, State.car]
    have hru : u.tracker.renumbers = true := hnums.renumbers.trans hr
    have hn : u.tracker.takeNumber.epoch = some p.number := hnums.takes.1.trans htaken
    obtain ⟨hb', hf, hcars⟩ := completeStart_renumbered (u := u)
      (scheduled_congr hbatches (by simp [hcar]) (by simp [hcar]) (by simp [hcar]) (by simp [hcar]) hs)
      (blocksAccounted_congr hbatches hstore hb) hru hn
    refine ⟨_, hexec, by rw [completeStart_tracker, hn], hbits u hru, hb', hf, by simp [halign], fun c => ?_⟩
    obtain ⟨hcur, hnext, hair, hinc, hstack, hopen, hout, hkey⟩ := hcars c
    obtain ⟨hlabel, hentries⟩ := hlabels _ hout
    exact ⟨hcur, hnext, hair, hinc, hstack, hopen, hlabel, hentries, by simpa [hcar] using hkey, by simp [hcar], by simp [hcar]⟩
  · obtain ⟨-, hbatches, hstore, hcarriers, -, -, -, -, hcar⟩ := heldOver_keeps s
    have hs' : Scheduled (heldOver s) :=
      scheduled_congr hbatches (by simp [hcar]) (by simp [hcar]) (by simp [hcar]) (by simp [hcar]) hs
    obtain ⟨v, hv, hcompletes⟩ := expireHoldover_completes (heldOver s)
    have hnums : SameNumbers s.tracker v.tracker := hv.tracker ▸ expired_numbers s
    have hru : v.tracker.renumbers = true := hnums.renumbers.trans hr
    have hn : v.tracker.takeNumber.epoch = some p.number := hnums.takes.1.trans htaken
    obtain ⟨hb', hf, hcars⟩ := completeStart_renumbered (u := v)
      (scheduled_congr hv.batches (fun c => (hv.places c).1) (fun c => (hv.places c).2.1) (fun c => (hv.places c).2.2.1)
        (fun c => (hv.places c).2.2.2) (scheduled_timingLoss hs'))
      (blocksAccounted_congr hv.batches hv.store (blocksAccounted_tableSafe.timingLoss (blocksAccounted_congr hbatches hstore hb)))
      hru hn
    have hdone : expireHoldover (heldOver s) = completeStart v :=
      hcompletes.elim id fun h => h.trans (recordAllOpen_nil fun c => (hcars c).2.2.2.2.2.1)
    refine ⟨_, hexec, ?_⟩
    rw [hdone]
    refine ⟨by rw [completeStart_tracker, hn], hbits v hru, hb', hf, by simp [hv.align, heldOver_keeps], fun c => ?_⟩
    obtain ⟨hcur, hnext, hair, hinc, hstack, hopen, hout, hkey⟩ := hcars c
    obtain ⟨hlabel, hentries⟩ := hlabels _ hout
    obtain ⟨-, hkv, hpv, hmv⟩ := hv.lines c
    refine ⟨hcur, hnext, hair, hinc, hstack, hopen, hlabel, hentries, fun hk => hkey fun hp => hk ?_, by simp [hpv, hcar],
      by simp [hmv, hcar]⟩
    rw [← hcar c]
    exact (keysAndWords_timingLoss (heldOver s) c).1 (hkv ▸ hp)

end Sys2Proof.Machine
end

section
/-! The open slots recorded at a loss of timing: the codes that the release and the flush give them, and the outcome array that
takes them (O11, O15). -/

namespace Sys2Proof.Machine

open Sys2Proof.Safety

/-! ### Open slots recoded -/

/-- Each open slot's held code changed by `g`. -/
def recoded (g : SlotRef → Option SlotOutcome → Option SlotOutcome) (slots : List OpenSlot) : List OpenSlot :=
  slots.map fun x => { x with held := g x.slot x.held }

theorem recoded_recoded (g k : SlotRef → Option SlotOutcome → Option SlotOutcome) (slots : List OpenSlot) :
    recoded k (recoded g slots) = recoded (fun sl h => k sl (g sl h)) slots := by
  simp [recoded, Function.comp_def]

theorem recoded_id (slots : List OpenSlot) : recoded (fun _ h => h) slots = slots := by
  simp [recoded]

theorem coded_eq_recoded (p : SlotRef → Bool) (o : SlotOutcome) (slots : List OpenSlot) :
    coded p o slots = recoded (fun sl h => if p sl = true then mergeCode h o else h) slots := by
  unfold coded recoded
  refine List.map_congr_left fun x _ => ?_
  by_cases h : p x.slot = true <;> simp [h]

theorem recoded_slots (g : SlotRef → Option SlotOutcome → Option SlotOutcome) (slots : List OpenSlot) :
    (recoded g slots).map OpenSlot.slot = slots.map OpenSlot.slot := by
  simp [recoded, Function.comp_def]

/-! ### The codes of discarded runs (R100, R117) -/

/-- The code CUT of a discarded run. -/
def cutOf (r : Run) : SlotOutcome := { code := .cut, id := r.batchId }

/-- What a slot holds once the runs `rs` have been discarded. -/
def cutBy (rs : List Run) (sl : SlotRef) (h : Option SlotOutcome) : Option SlotOutcome :=
  (rs.filter fun r => r.slot = sl).foldl (fun h r => mergeCode h (cutOf r)) h

theorem foldl_assignCut (rs : List Run) {slots : List OpenSlot} (h : ∀ r ∈ rs, ∃ x ∈ slots, x.slot = r.slot) :
    rs.foldl (fun os r => assignIn r.slot (cutOf r) os) slots = recoded (cutBy rs) slots := by
  induction rs generalizing slots with
  | nil => exact (recoded_id slots).symm
  | cons r rs ih =>
    have hrest (q : Run) (hq : q ∈ rs) := open_of_slots (coded_slots (fun x => x = r.slot) (cutOf r) slots) (h q (by simp [hq]))
    rw [List.foldl_cons, assignIn_open (h r (by simp)), ih hrest, coded_eq_recoded, recoded_recoded]
    congr 1
    funext sl o
    unfold cutBy
    by_cases hr : r.slot = sl
    · simp [hr]
    · simp [hr, Ne.symm hr]

theorem cutRuns_openSlots (c : Carrier) (rs : List Run) (s : State) :
    ((rs.foldl (fun s r => cutRun c r s) s).car c).sched.openSlots =
      rs.foldl (fun os r => assignIn r.slot (cutOf r) os) (s.car c).sched.openSlots := by
  induction rs generalizing s with
  | nil => rfl
  | cons r rs ih =>
    rw [List.foldl_cons, ih, List.foldl_cons]
    simp [cutRun, assignCode, modSched, cutOf]

theorem setBacks_openSlots (c : Carrier) (rs : List Run) (s : State) :
    ((rs.foldl (fun s r => setBack r s) s).car c).sched.openSlots = (s.car c).sched.openSlots :=
  foldl_keeps (fun t => (t.car c).sched.openSlots) (by simp) rs s

/-- The immediate release of a key that no probe holds gives CUT to the slots of the runs it discards, but for the slot of a
fault. -/
theorem releaseNow_openSlots {c : Carrier} {s : State} (hk : (s.car c).key ≠ .probe)
    (ho : ∀ r ∈ (s.car c).timer.runs, ∃ x ∈ (s.car c).sched.openSlots, x.slot = r.slot) (x : Option SlotRef) :
    ((releaseNow c x s).car c).sched.openSlots =
      recoded (cutBy ((s.car c).timer.runs.filter fun r => some r.slot ≠ x)) (s.car c).sched.openSlots := by
  rw [← foldl_assignCut _ fun r hr => ho r (List.mem_of_mem_filter hr), ← cutRuns_openSlots]
  unfold releaseNow
  rw [if_neg hk]
  simp [modTimer, setBacks_openSlots]

theorem releaseAll_openSlots {c : Carrier} {s : State} (hk : (s.car c).key ≠ .probe)
    (ho : ∀ r ∈ (s.car c).timer.runs, ∃ x ∈ (s.car c).sched.openSlots, x.slot = r.slot) :
    ((releaseAll s).car c).sched.openSlots = recoded (cutBy (s.car c).timer.runs) (s.car c).sched.openSlots := by
  have hown (u : State) (hu : u.car c = s.car c) : ((releaseNow c none u).car c).sched.openSlots =
      recoded (cutBy (s.car c).timer.runs) (s.car c).sched.openSlots := by
    rw [releaseNow_openSlots (by rwa [hu]) (by rwa [hu]), hu]
    simp
  unfold releaseAll
  cases c <;> simp [hown]

/-- CUT stands higher than any other code. -/
theorem codeNumber_lt_cut {k : OutcomeCode} (h : k ≠ .cut) : codeNumber k < codeNumber .cut := by
  revert h
  cases k <;> decide

/-- A slot that holds CUT keeps it. -/
theorem mergeCode_cut {o : SlotOutcome} (h : o.code = .cut) (n : SlotOutcome) : mergeCode (some o) n = some o := by
  have hle : codeNumber n.code ≤ codeNumber .cut := by cases n.code <;> decide
  simp only [mergeCode, h]
  exact if_neg (Nat.not_lt.2 hle)

/-- A slot that holds no CUT takes it. -/
theorem mergeCode_takesCut {h : Option SlotOutcome} (hh : ∀ o, h = some o → o.code ≠ .cut) (id : Option BatchId) :
    mergeCode h { code := .cut, id := id } = some { code := .cut, id := id } := by
  cases h with
  | none => rfl
  | some o => exact if_pos (codeNumber_lt_cut (hh o rfl))

/-- A slot that held no CUT, all of whose discarded runs name the same batch, holds CUT with that batch. -/
theorem cutBy_run {rs : List Run} {r : Run} (hr : r ∈ rs) (hsame : ∀ q ∈ rs, q.slot = r.slot → q.batchId = r.batchId)
    {h : Option SlotOutcome} (hh : ∀ o, h = some o → o.code ≠ .cut) :
    cutBy rs r.slot h = some { code := .cut, id := r.batchId } := by
  have hkept (l : List Run) (o : SlotOutcome) (ho : o.code = .cut) :
      l.foldl (fun h r => mergeCode h (cutOf r)) (some o) = some o := by
    induction l with
    | nil => rfl
    | cons q qs ih => rw [List.foldl_cons, mergeCode_cut ho, ih]
  have hmem : r ∈ rs.filter fun q => q.slot = r.slot := List.mem_filter.2 ⟨hr, by simp⟩
  have hall (q : Run) (hq : q ∈ rs.filter fun q => q.slot = r.slot) : q.batchId = r.batchId := by
    obtain ⟨hq, hs⟩ := List.mem_filter.1 hq
    exact hsame q hq (by simpa using hs)
  unfold cutBy
  cases hl : rs.filter fun q => q.slot = r.slot with
  | nil => rw [hl] at hmem; cases hmem
  | cons q qs =>
    have hq : cutOf q = { code := .cut, id := r.batchId } := by rw [cutOf, hall q (by rw [hl]; simp)]
    rw [List.foldl_cons, hq, mergeCode_takesCut hh, hkept _ _ rfl]

theorem cutBy_unused {rs : List Run} {sl : SlotRef} (h : ∀ r ∈ rs, r.slot ≠ sl) (o : Option SlotOutcome) :
    cutBy rs sl o = o := by
  have hnil : (rs.filter fun r => r.slot = sl) = [] := by simpa using h
  rw [cutBy, hnil, List.foldl_nil]

/-! ### The codes of the flush (R77, R101) -/

/-- A batch whose flush assigns a code to the slots of carrier `c`. -/
def FlushCodes (c : Carrier) (b : Batch) (s : State) : Prop :=
  b.carrier = c ∧ b.state ≠ .onAir ∧ (b.state = .suspended ∨ (s.car c).sched.incoming = some b.id)

theorem endBatch_closed (id : BatchId) (why : EndReason) (s : State) (d : Carrier) :
    ((endBatch id why s).car d).sched.closed = (s.car d).sched.closed := by
  cases hf : findBatch id s with
  | none => rw [endBatch_none hf]
  | some b =>
    obtain ⟨-, -, -, hcar, hother⟩ := endBatch_some hf why
    by_cases hd : d = b.carrier
    · rw [hd, hcar]; rfl
    · rw [hother d hd]

/-- A flushed batch and the open slots of a carrier that has no run. -/
theorem flushBatch_slots {c : Carrier} {s : State} (hr : NoRuns (s.car c).timer) (why : EndReason) (b : Batch) :
    ((flushBatch why b s).car c).sched.closed = (s.car c).sched.closed ∧
    (FlushCodes c b s → ((flushBatch why b s).car c).sched.openSlots =
      coded (spanTest s.tracker (s.car c).sched) { code := .noTiming, id := some b.id } (s.car c).sched.openSlots) ∧
    (¬ FlushCodes c b s → ((flushBatch why b s).car c).sched.openSlots = (s.car c).sched.openSlots) := by
  unfold flushBatch
  split
  · next ha => exact ⟨endBatch_closed _ _ _ _, fun h => absurd ha h.2.1, fun _ => by simp⟩
  next ha =>
  split
  · next hs =>
    by_cases hc : b.carrier = c
    · subst hc
      have hcodes : FlushCodes b.carrier b s := ⟨rfl, ha, by simpa using hs⟩
      rw [assignByRun_noRuns hr]
      exact ⟨(endBatch_closed _ _ _ _).trans (by simp [modSched]), fun _ => by simp [modSched, assignSpan_coded],
        fun h => absurd hcodes h⟩
    · exact ⟨(endBatch_closed _ _ _ _).trans (by simp [Ne.symm hc]), fun h => absurd h.1 hc, fun _ => by simp [Ne.symm hc]⟩
  · next hs =>
    refine ⟨endBatch_closed _ _ _ _, fun h => absurd ?_ hs, fun _ => by simp⟩
    obtain ⟨rfl, -, h⟩ := h
    simpa using h

/-- The flush of a list of batches recodes the open slots of a carrier that has no run, and never a slot that holds CUT. -/
theorem foldl_flushBatch_slots {c : Carrier} (why : EndReason) (bs : List Batch) {s : State} (hr : NoRuns (s.car c).timer) :
    ∃ g, ((bs.foldl (fun s b => flushBatch why b s) s).car c).sched.openSlots = recoded g (s.car c).sched.openSlots ∧
      ∀ sl o, o.code = OutcomeCode.cut → g sl (some o) = some o := by
  induction bs generalizing s with
  | nil => exact ⟨fun _ h => h, (recoded_id _).symm, fun _ _ _ => rfl⟩
  | cons b bs ih =>
    obtain ⟨g, hg, hcut⟩ := ih (flushBatch_noRuns why b hr)
    obtain ⟨-, hcodes, hnone⟩ := flushBatch_slots hr why b
    rw [List.foldl_cons, hg]
    by_cases hb : FlushCodes c b s
    · rw [hcodes hb, coded_eq_recoded, recoded_recoded]
      refine ⟨_, rfl, fun sl o ho => ?_⟩
      split
      · rw [mergeCode_cut ho, hcut sl o ho]
      · exact hcut sl o ho
    · exact ⟨g, by rw [hnone hb], hcut⟩

theorem flushBatch_incoming {c : Carrier} {s : State} (h : (s.car c).sched.incoming = none) (why : EndReason) (b : Batch) :
    ((flushBatch why b s).car c).sched.incoming = none := by
  have hend (id : BatchId) (w : EndReason) (t : State) (ht : (t.car c).sched.incoming = none) :
      ((endBatch id w t).car c).sched.incoming = none := by
    cases hf : findBatch id t with
    | none => rw [endBatch_none hf, ht]
    | some x =>
      obtain ⟨-, -, -, hcar, hother⟩ := endBatch_some hf w
      by_cases hd : c = x.carrier
      · subst hd
        rw [hcar]
        simp [dropFromCarrier, ht]
      · rw [hother c hd, ht]
  unfold flushBatch
  split
  · exact hend _ _ _ h
  · split
    · exact hend _ _ _ (by simp [h])
    · exact hend _ _ _ h

/-- With nothing incoming and no SUSPENDED batch of the carrier, the flush gives its slots no code. -/
theorem foldl_flushBatch_none {c : Carrier} (why : EndReason) {bs : List Batch}
    (hb : ∀ b ∈ bs, b.carrier = c → b.state ≠ .suspended) {s : State} (hr : NoRuns (s.car c).timer)
    (hi : (s.car c).sched.incoming = none) :
    let t := bs.foldl (fun s b => flushBatch why b s) s
    (t.car c).sched.openSlots = (s.car c).sched.openSlots ∧ (t.car c).sched.closed = (s.car c).sched.closed ∧
      (t.car c).sched.incoming = none ∧ NoRuns (t.car c).timer ∧ t.tracker = s.tracker := by
  induction bs generalizing s with
  | nil => exact ⟨rfl, rfl, hi, hr, rfl⟩
  | cons b bs ih =>
    obtain ⟨hclosed, -, hnone⟩ := flushBatch_slots hr why b
    have hcodes : ¬ FlushCodes c b s := by
      rintro ⟨hc, -, hs | hs⟩
      · exact hb b (by simp) hc hs
      · rw [hi] at hs; cases hs
    obtain ⟨h1, h2, h3, h4, h5⟩ := ih (fun x hx => hb x (by simp [hx])) (flushBatch_noRuns why b hr) (flushBatch_incoming hi why b)
    exact ⟨h1.trans (hnone hcodes), h2.trans hclosed, h3, h4, h5.trans (by simp)⟩

theorem flushAll_openSlots (why : EndReason) (s : State) (c : Carrier) : ((flushAll why s).car c).sched.openSlots =
    ((s.batches.foldl (fun s b => flushBatch why b s) s).car c).sched.openSlots := by
  simp [flushAll]

/-- The flush of a carrier with no run and nothing incoming: no code with no batch SUSPENDED, NO_TIMING by its span with one. -/
theorem flushAll_plain {c : Carrier} {s : State} (hs : Scheduled s) (hr : NoRuns (s.car c).timer)
    (hi : (s.car c).sched.incoming = none) (why : EndReason) :
    ((s.car c).sched.stack = [] → ((flushAll why s).car c).sched.openSlots = (s.car c).sched.openSlots) ∧
    ∀ id, (s.car c).sched.stack = [id] → (s.car c).sched.closed = none → ((flushAll why s).car c).sched.openSlots =
      coded (inSpan s.tracker) { code := .noTiming, id := some id } (s.car c).sched.openSlots := by
  obtain ⟨-, -, hrec, -, hstack, -⟩ := (hs.2 c).2
  have hsusp (b : Batch) (hb : b ∈ s.batches) (hc : b.carrier = c) (h : b.state = .suspended) :
      b.id ∈ (s.car c).sched.stack := (hrec b hb hc).2.1 h
  refine ⟨fun hnil => ?_, fun id hid hclosed => ?_⟩
  · rw [flushAll_openSlots]
    exact (foldl_flushBatch_none why (fun b hb hc h => by have := hsusp b hb hc h; rw [hnil] at this; cases this) hr hi).1
  · obtain ⟨b, hb, hbc⟩ := hstack id (by rw [hid]; simp)
    obtain ⟨rfl, hmem⟩ := findBatch_some hb
    obtain ⟨l, r, hlr, hl, hrr, -⟩ := table_split hs.1 hmem
    have hothers (x : Batch) (hx : x ∈ s.batches) (hne : x.id ≠ b.id) (hc : x.carrier = c) : x.state ≠ .suspended := by
      intro h
      have := hsusp x hx hc h
      rw [hid] at this
      exact hne (by simpa using this)
    have hstate : b.state = .suspended := (hrec b hmem hbc).2.2 (by rw [hid]; simp)
    obtain ⟨o1, c1, i1, r1, t1⟩ := foldl_flushBatch_none why (bs := l)
      (fun x hx => hothers x (by rw [hlr]; simp [hx]) (hl x hx)) hr hi
    obtain ⟨-, hcodes, -⟩ := flushBatch_slots r1 why b
    obtain ⟨o2, -⟩ := foldl_flushBatch_none why (bs := r)
      (fun x hx => hothers x (by rw [hlr]; simp [hx]) (hrr x hx)) (flushBatch_noRuns why b r1) (flushBatch_incoming i1 why b)
    rw [flushAll_openSlots]
    conv_lhs => rw [hlr]
    rw [List.foldl_append, List.foldl_cons, o2, hcodes ⟨hbc, by rw [hstate]; decide, .inl hstate⟩, o1,
      spanTest_open (c1.trans hclosed), t1]

/-! ### What an outcome array takes from open slots (R102) -/

/-- The entry of an index after a slot of the label's cycle, or of another, is recorded. -/
theorem record_entry {a : OutcomeArray} {n : CycleNo} (hl : a.label = some n) (o : OpenSlot) (i : Fin 32) :
    (a.record o).label = some n ∧ (a.record o).entries.get i =
      if o.slot.cycle = n ∧ o.slot.index = i then (a.entries.get i).or o.held else a.entries.get i := by
  unfold OutcomeArray.record
  rw [hl, Option.getD_some]
  by_cases hn : n = o.slot.cycle
  · subst hn
    rw [if_pos rfl]
    refine ⟨rfl, ?_⟩
    rw [Vector.get_eq_getElem, Vector.getElem_set]
    by_cases hi : o.slot.index = i
    · subst hi
      simp [Vector.get_eq_getElem]
    · simp [hi, Fin.val_inj, Vector.get_eq_getElem]
  · rw [if_neg hn, if_neg fun h => hn h.1.symm]
    exact ⟨hl, rfl⟩

/-- Where the slots of one index of the label's cycle all hold `h`, the entry takes `h` unless it is written. -/
theorem foldl_record_entry {n : CycleNo} {i : Fin 32} {h : Option SlotOutcome} (os : List OpenSlot) {a : OutcomeArray}
    (hl : a.label = some n) (hall : ∀ x ∈ os, x.slot.cycle = n → x.slot.index = i → x.held = h) :
    (os.foldl OutcomeArray.record a).entries.get i =
      if ∃ x ∈ os, x.slot.cycle = n ∧ x.slot.index = i then (a.entries.get i).or h else a.entries.get i := by
  induction os generalizing a with
  | nil => simp
  | cons o os ih =>
    obtain ⟨hlabel, hentry⟩ := record_entry hl o i
    rw [List.foldl_cons, ih hlabel fun x hx => hall x (by simp [hx]), hentry]
    by_cases ho : o.slot.cycle = n ∧ o.slot.index = i
    · have hheld := hall o (by simp) ho.1 ho.2
      simp only [hheld, List.mem_cons, exists_eq_or_imp, ho, and_self, true_or, if_true]
      split
      · cases a.entries.get i <;> cases h <;> rfl
      · rfl
    · simp only [List.mem_cons, exists_eq_or_imp, ho, false_or, if_false]

/-! ### The slots recorded at a loss of timing (R102, R104) -/

/-- What a loss of timing does to the code an open slot holds: CUT for a discarded run, NO_TIMING by the span of a SUSPENDED
batch. -/
structure LossCodes (w : Tracker) (k : CarrierState) (g : SlotRef → Option SlotOutcome → Option SlotOutcome) : Prop where
  cut : ∀ r ∈ k.timer.runs, (∀ q ∈ k.timer.runs, q.slot = r.slot → q.batchId = r.batchId) →
    ∀ h, (∀ o, h = some o → o.code ≠ OutcomeCode.cut) → g r.slot h = some { code := .cut, id := r.batchId }
  plain : ∀ sl, (∀ r ∈ k.timer.runs, r.slot ≠ sl) → k.sched.incoming = none → k.sched.stack = [] → ∀ h, g sl h = h
  span : ∀ sl, (∀ r ∈ k.timer.runs, r.slot ≠ sl) → k.sched.incoming = none → ∀ id, k.sched.stack = [id] → k.sched.closed = none →
    ∀ h, g sl h = if inSpan w sl = true then mergeCode h { code := .noTiming, id := some id } else h

/-- The codes an open slot holds go into the array's empty entries. -/
theorem slotsRecorded_of {w : Tracker} {c : Carrier} {s t : State}
    (h : (∀ r ∈ (s.car c).timer.runs, ∃ y ∈ (s.car c).sched.openSlots, y.slot = r.slot) → ∃ g,
      (t.car c).sched.outcomes =
        (recoded g (s.car c).sched.openSlots).foldl OutcomeArray.record (s.car c).sched.outcomes ∧
      LossCodes w (s.car c) g) : SlotsRecorded w c s t := by
  intro hopen o ho hlabel hunique
  obtain ⟨g, hout, hcodes⟩ := h hopen
  have hentry : (t.car c).sched.outcomes.entries.get o.slot.index =
      ((s.car c).sched.outcomes.entries.get o.slot.index).or (g o.slot o.held) := by
    rw [hout, foldl_record_entry (h := g o.slot o.held) _ hlabel, if_pos]
    · exact ⟨_, List.mem_map.2 ⟨o, ho, rfl⟩, rfl, rfl⟩
    · intro y hy hcycle hindex
      obtain ⟨z, hz, rfl⟩ := List.mem_map.1 hy
      by_cases hzo : z = o
      · rw [hzo]
      · exact absurd hindex (hunique z hz hzo hcycle)
  intro entry
  refine ⟨fun e he => ?_, fun he => ?_⟩
  · rw [show entry = _ from hentry, he]
    rfl
  · have hg : entry = g o.slot o.held := by rw [show entry = _ from hentry, he]; rfl
    refine ⟨fun r hr hslot hsame hheld => ?_, fun hno hinc => ⟨fun hstack => ?_, fun id hid hclosed => ?_⟩⟩
    · rw [hg, ← hslot]
      exact hcodes.cut r hr (fun q hq hqs => hsame q hq (hqs.trans hslot)) _ hheld
    · rw [hg, hcodes.plain _ hno hinc hstack]
    · rw [hg, hcodes.span _ hno hinc id hid hclosed]

theorem releaseNow_closed (c : Carrier) (x : Option SlotRef) (s : State) (d : Carrier) :
    ((releaseNow c x s).car d).sched.closed = (s.car d).sched.closed := by
  by_cases hd : d = c
  · subst hd
    by_cases hk : (s.car d).key = .probe
    · rw [(releaseNow_same d x s).1 hk]
    · obtain ⟨-, os, hsched⟩ := (releaseNow_same d x s).2 hk
      rw [hsched]
  · simp [hd]

/-- A loss of timing recodes the open slots by its release and its flush. -/
theorem timingLoss_openSlots {s : State} (hs : Scheduled s) (hp : ProbeHoldsKey s) (c : Carrier)
    (ho : ∀ r ∈ (s.car c).timer.runs, ∃ y ∈ (s.car c).sched.openSlots, y.slot = r.slot) :
    ∃ g, ((timingLoss s).car c).sched.openSlots = recoded g (s.car c).sched.openSlots ∧
      LossCodes s.tracker (s.car c) g := by
  have hs' : Scheduled (releaseAll (abortProbe s)) :=
    releaseAll_both.1 (scheduled_congr (by simp) (by simp) (by simp) (by simp) (by simp) hs)
  have hk := abortProbe_spec hp c
  obtain ⟨-, hruns, -⟩ := (releaseAll_spec (abortProbe s) c).2 hk
  have hrelease : ((releaseAll (abortProbe s)).car c).sched.openSlots =
      recoded (cutBy (s.car c).timer.runs) (s.car c).sched.openSlots := by
    rw [releaseAll_openSlots hk (by simpa using ho)]
    simp
  have hloss : ((timingLoss s).car c).sched.openSlots = ((flushAll .noTiming (releaseAll (abortProbe s))).car c).sched.openSlots :=
    rfl
  have hclosed : ((releaseAll (abortProbe s)).car c).sched.closed = (s.car c).sched.closed := by
    simp [releaseAll, releaseNow_closed]
  obtain ⟨g, hg, hcut⟩ := foldl_flushBatch_slots .noTiming (releaseAll (abortProbe s)).batches hruns
  rw [← flushAll_openSlots, ← hloss, hrelease, recoded_recoded] at hg
  have hgcut (r : Run) (hr : r ∈ (s.car c).timer.runs)
      (hsame : ∀ q ∈ (s.car c).timer.runs, q.slot = r.slot → q.batchId = r.batchId) (h : Option SlotOutcome)
      (hh : ∀ o, h = some o → o.code ≠ OutcomeCode.cut) :
      g r.slot (cutBy (s.car c).timer.runs r.slot h) = some { code := .cut, id := r.batchId } := by
    rw [cutBy_run hr hsame hh, hcut _ _ rfl]
  by_cases hi : (s.car c).sched.incoming = none
  case neg => exact ⟨_, hg, hgcut, fun _ _ h => absurd h hi, fun _ _ h => absurd h hi⟩
  obtain ⟨hnone, hone⟩ := flushAll_plain hs' hruns (by simpa using hi) .noTiming
  by_cases hstack : (s.car c).sched.stack = []
  · refine ⟨cutBy (s.car c).timer.runs, ?_, fun r hr hsame h hh => cutBy_run hr hsame hh,
      fun sl hno _ _ h => cutBy_unused hno h, fun _ _ _ id hid => by rw [hstack] at hid; cases hid⟩
    rw [hloss, hnone (by simpa using hstack), hrelease]
  by_cases hid : ∃ id, (s.car c).sched.stack = [id] ∧ (s.car c).sched.closed = none
  case neg => exact ⟨_, hg, hgcut, fun _ _ _ h => absurd h hstack, fun _ _ _ id h hc => absurd ⟨id, h, hc⟩ hid⟩
  obtain ⟨id, hid, hno⟩ := hid
  refine ⟨fun sl h => if inSpan s.tracker sl = true then
      mergeCode (cutBy (s.car c).timer.runs sl h) { code := .noTiming, id := some id }
    else cutBy (s.car c).timer.runs sl h, ?_, ?_, fun _ _ _ h => absurd h hstack, ?_⟩
  · rw [hloss, hone id (by simpa using hid) (hclosed.trans hno), hrelease, coded_eq_recoded, recoded_recoded]
    simp
  · intro r hr hsame h hh
    rw [cutBy_run hr hsame hh, mergeCode_cut rfl, ite_self]
  · intro sl hunused _ id' hid' _ h
    obtain rfl : id = id' := by rw [hid] at hid'; simpa using hid'
    rw [cutBy_unused hunused]

end Sys2Proof.Machine
end

section
/-! CLOCK_LOST and the expiry of holdover: the flush, the slots recorded, and what stands (O11, O15). -/

namespace Sys2Proof.Machine

open Sys2Proof.Safety

/-! ### CLOCK_LOST (R2) -/

theorem clockLost_present {s : State} (h : s.tracker.ref ≠ .noClock) :
    clockLost s = latch .clockLost (modTracker Tracker.lose (clearMonitors (recordAllOpen (timingLoss s)))) := if_neg h

/-- A loss of timing with its slots recorded, on one carrier. -/
theorem recordedLoss_car {s : State} (hs : Scheduled s) (hp : ProbeHoldsKey s) (c : Carrier) :
    let t := recordAllOpen (timingLoss s)
    Idle (t.car c) ∧ (t.car c).key = .released ∧ (t.car c).sched.openSlots = [] ∧
      (t.car c).word = centreWord (activeWords c s) ∧ (t.car c).power = (s.car c).power ∧
      (t.car c).marker = (s.car c).marker ∧ (t.car c).monitor.opening = none ∧
      (t.car c).sched.lastMargin = (s.car c).sched.lastMargin ∧ (t.car c).sched.goodStarts = (s.car c).sched.goodStarts := by
  obtain ⟨-, -, -, -, hcars⟩ := timingLoss_spec hs hp
  obtain ⟨⟨hcur, hnext, hruns, hair, hinc, hstack⟩, hkey, hword, hopening⟩ := hcars c
  refine ⟨⟨?_, ?_, ?_, ?_, ?_, ?_⟩, ?_, ?_, ?_, ?_, ?_, ?_, ?_, ?_⟩ <;>
    simp [hcur, hnext, hruns, hair, hinc, hstack, hkey, hword, hopening, recordAllOpen_sched]

/-- The outcome array that a recorded loss of timing leaves. -/
theorem slotsRecorded_loss {s : State} (hs : Scheduled s) (hp : ProbeHoldsKey s) {w : Tracker} (c : Carrier) {r t : State}
    (hc : r.car c = s.car c) (hw : ∀ sl, inSpan w sl = inSpan s.tracker sl)
    (ht : (t.car c).sched.outcomes = ((recordAllOpen (timingLoss s)).car c).sched.outcomes) : SlotsRecorded w c r t := by
  refine slotsRecorded_of fun ho => ?_
  rw [hc] at ho ⊢
  obtain ⟨g, hg, hcodes⟩ := timingLoss_openSlots hs hp c ho
  refine ⟨g, ?_, hcodes.cut, hcodes.plain, fun sl hno hi id hid hclosed h => ?_⟩
  · rw [ht, recordAllOpen_sched, hg]
    simp
  · rw [hw]
    exact hcodes.span sl hno hi id hid hclosed h

theorem timingLoss_probe (s : State) : (timingLoss s).probe = (abortProbe s).probe := by simp [timingLoss]

theorem clearMonitors_same (s : State) (c : Carrier) : (clearMonitors s).car c = { s.car c with
    monitor := { (s.car c).monitor with opening := none, presence := none } } := by
  simp [clearMonitors]

/-- Settles O11: the loss of timing is an abort, a release and a flush, whose codes `timingLoss_openSlots` collects. -/
theorem clockLossFlushes : Obligations.ClockLossFlushes := by
  unfold Obligations.ClockLossFlushes
  intro s href hs hb hp
  obtain ⟨hbatches, hstore, -⟩ := timingLoss_spec hs hp
  obtain ⟨hcount, hfree⟩ := hstore hb
  refine ⟨_, congrArg Host.Outcome.next (clockLost_present href), by simp [modTracker, Tracker.lose],
    by simp [latch, Alarm.mask, Alarm.bit], by simp, by simp, by simpa using hbatches, by simpa using hcount,
    fun n hn => ?_, by simp, by simp, fun c => ?_⟩
  · have := hfree n hn
    unfold readBlock at *
    simpa using this
  · obtain ⟨⟨hcur, hnext, hruns, hair, hinc, hstack⟩, hkey, hopen, hword, hpower, hmarker, hopening, hlast, hgood⟩ :=
      recordedLoss_car hs hp c
    have hcar : (latch .clockLost (modTracker Tracker.lose (clearMonitors (recordAllOpen (timingLoss s))))).car c =
        { (recordAllOpen (timingLoss s)).car c with
          monitor := { ((recordAllOpen (timingLoss s)).car c).monitor with opening := none, presence := none } } :=
      clearMonitors_same _ c
    refine ⟨?_, ?_, ?_, ?_, ?_, ?_, ?_, ?_, ?_, ?_, ?_, slotsRecorded_loss hs hp c rfl (fun _ => rfl) (by rw [hcar])⟩
    case refine_11 =>
      have hprobe := probeAborted_abortProbe s
      rw [← timingLoss_probe] at hprobe
      simpa using hprobe
    all_goals rw [hcar]
    · exact ⟨hcur, hnext, hruns, hair, hinc, hstack⟩
    · exact hkey
    · exact hopen
    · exact hword
    · exact hpower
    · exact hmarker
    · exact hlast
    · exact hgood

/-! ### The expiry of holdover (R13) -/

/-- With no timing available maps stand as they are. -/
theorem bringMaps_untimed (c : Carrier) {s : State} (h : timingAvailable s = false) : bringMaps c s = s := by
  simp [bringMaps, currentCycle, h]

theorem bringAllMaps_untimed {s : State} (h : timingAvailable s = false) : bringAllMaps s = s := by
  unfold bringAllMaps
  rw [bringMaps_untimed .c1 h, bringMaps_untimed .c2 h, bringMaps_untimed .c3 h, bringMaps_untimed .c4 h]

/-- A start in ACQUIRING that does not renumber brings no map up to date. -/
theorem completeStart_untimed {v : State} (hr : v.tracker.renumbers = false) (href : v.tracker.ref = .acquiring) :
    completeStart v = startReports false (modTracker Tracker.takeNumber v) := by
  have hkept : completeStart v = bringAllMaps (startReports false (modTracker Tracker.takeNumber v)) := by
    simp [completeStart, hr]
  rw [hkept]
  refine bringAllMaps_untimed ?_
  obtain ⟨-, hkeeps, -⟩ := takeNumber_keeps v.tracker
  simp [timingAvailable, modTracker, hkeeps, href]

/-- A state with no batch and every carrier idle, its key RELEASED. -/
structure Emptied (s : State) : Prop where
  batches : s.batches = []
  freeCount : s.store.freeCount = 2048
  idle : ∀ c, Idle (s.car c)
  released : ∀ c, (s.car c).key = .released

theorem takeNumber_renumbers {t : Tracker} (h : t.renumbers = true) : ∃ n, t.takeNumber.epoch = some n := by
  unfold Tracker.renumbers at h
  unfold Tracker.takeNumber
  cases hp : t.pending with
  | none => simp [hp] at h
  | some p => exact ⟨p.number, rfl⟩

/-- A start in ACQUIRING leaves an emptied state emptied. -/
theorem emptied_completeStart {v : State} (hv : Emptied v) (hs : Scheduled v) (hb : BlocksAccounted v)
    (href : v.tracker.ref = .acquiring) : Emptied (completeStart v) := by
  cases hr : v.tracker.renumbers with
  | false =>
    rw [completeStart_untimed hr href]
    refine ⟨by simpa using hv.batches, by simpa using hv.freeCount, fun c => ?_, fun c => by simpa using hv.released c⟩
    obtain ⟨hcur, hnext, hruns, hair, hinc, hstack⟩ := hv.idle c
    refine ⟨?_, ?_, ?_, ?_, ?_, ?_⟩ <;> simp [hcur, hnext, hruns, hair, hinc, hstack]
  | true =>
    obtain ⟨n, hn⟩ := takeNumber_renumbers hr
    obtain ⟨hbatches, hcount, hcars⟩ := completeStart_renumbered hs hb hr hn
    refine ⟨hbatches, hcount, fun c => ?_, fun c => ?_⟩
    all_goals
      obtain ⟨hcur, hnext, hair, hinc, hstack, -, -, hkey⟩ := hcars c
      obtain ⟨hreleased, hruns⟩ := hkey (by rw [hv.released c]; decide)
    · exact ⟨hcur, hnext, hruns, hair, hinc, hstack⟩
    · exact hreleased

theorem emptied_recordAllOpen {s : State} (h : Emptied s) : Emptied (recordAllOpen s) := by
  refine ⟨by simpa using h.batches, by simpa using h.freeCount, fun c => ?_, fun c => by simpa using h.released c⟩
  obtain ⟨hcur, hnext, hruns, hair, hinc, hstack⟩ := h.idle c
  refine ⟨?_, ?_, ?_, ?_, ?_, ?_⟩ <;> simp [hcur, hnext, hruns, hair, hinc, hstack]

/-- The state that an expiry completes is emptied. -/
theorem ExpiredFrom.emptied {s v : State} (hv : ExpiredFrom s v) (hs : Scheduled s) (hb : BlocksAccounted s)
    (hp : ProbeHoldsKey s) : Emptied v ∧ Scheduled v ∧ BlocksAccounted v := by
  obtain ⟨hbatches, hstore, hsched, hblocks, hcars⟩ := timingLoss_spec hs hp
  refine ⟨⟨hv.batches.trans hbatches, by rw [hv.store]; exact (hstore hb).1, fun c => ?_, fun c => ?_⟩, ?_, ?_⟩
  · obtain ⟨hmaps, hair, hinc, hstack⟩ := hv.places c
    obtain ⟨htimer, -⟩ := hv.lines c
    obtain ⟨hidle, -⟩ := hcars c
    unfold Idle at *
    rwa [hmaps, htimer, hair, hinc, hstack]
  · obtain ⟨-, hkey, -⟩ := hv.lines c
    exact hkey.trans (hcars c).2.1
  · exact scheduled_congr hv.batches (fun c => (hv.places c).1) (fun c => (hv.places c).2.1) (fun c => (hv.places c).2.2.1)
      (fun c => (hv.places c).2.2.2) hsched
  · exact blocksAccounted_congr hv.batches hv.store (hblocks hb)

/-- An expiry that neither renumbers nor begins a cycle makes no report and rolls no map. -/
theorem expireHoldover_quiet {s : State} (hr : s.tracker.renumbers = false) (h : s.tracker.startsCycleNext = false) :
    expireHoldover s = modTracker Tracker.takeNumber (modTracker Tracker.expire
      (recordAllOpen (latch .holdoverExpired (timingLoss s)))) := by
  have hv := (expiredFrom_recorded s).tracker
  rw [expireHoldover_plain h, completeStart_plain (by rw [hv]; exact hr), bringAllMaps_untimed]
  · obtain ⟨-, hkeeps, -⟩ := takeNumber_keeps s.tracker.expire
    have hacquiring : s.tracker.expire.takeNumber.ref = .acquiring := hkeeps
    simp [timingAvailable, modTracker, hacquiring]
  · intro m hm h4
    rw [hv] at hm
    have hm' : s.tracker.takeNumber.epoch = some m :=
      (SameNumbers.takes (t := s.tracker) (u := s.tracker.expire) ⟨rfl, rfl, rfl⟩).1.symm.trans hm
    simp [Tracker.startsCycleNext, hm', startsCycle, h4] at h

/-- An expiry leaves no slot open. -/
theorem expireHoldover_openSlots {s : State} (hs : Scheduled s) (hb : BlocksAccounted s) (hp : ProbeHoldsKey s) (c : Carrier) :
    ((expireHoldover s).car c).sched.openSlots = [] := by
  cases h : s.tracker.startsCycleNext with
  | true => rw [expireHoldover_cycle h, recordAllOpen_sched]
  | false =>
    cases hr : s.tracker.renumbers with
    | false =>
      rw [expireHoldover_quiet hr h]
      simp [modTracker, recordAllOpen_sched]
    | true =>
      have hv := expiredFrom_recorded s
      obtain ⟨-, hsched, hblocks⟩ := hv.emptied hs hb hp
      have hrv := (congrArg Tracker.renumbers hv.tracker).trans hr
      obtain ⟨n, hn⟩ := takeNumber_renumbers hrv
      rw [expireHoldover_plain h]
      exact ((completeStart_renumbered hsched hblocks hrv hn).2.2 c).2.2.2.2.2.1

theorem expireHoldover_emptied {s : State} (hs : Scheduled s) (hb : BlocksAccounted s) (hp : ProbeHoldsKey s) :
    Emptied (expireHoldover s) := by
  obtain ⟨v, hv, hcompletes⟩ := expireHoldover_completes s
  obtain ⟨hempty, hsched, hblocks⟩ := hv.emptied hs hb hp
  have hdone := emptied_completeStart hempty hsched hblocks (congrArg Tracker.ref hv.tracker)
  obtain hc | hc := hcompletes
  · exact hc ▸ hdone
  · exact hc ▸ emptied_recordAllOpen hdone

/-- What an expiry leaves as it was. -/
theorem expireHoldover_same (s : State) : (expireHoldover s).align = s.align ∧
    (expireHoldover s).probe = (abortProbe s).probe ∧
    (expireHoldover s).mgmt.alarms = (s.mgmt.alarms ||| 4) ||| (if s.tracker.renumbers = true then 16 else 0) ∧
    ∀ c, ((expireHoldover s).car c).power = (s.car c).power ∧ ((expireHoldover s).car c).marker = (s.car c).marker := by
  obtain ⟨v, hv, hcompletes⟩ := expireHoldover_completes s
  have hrv : v.tracker.renumbers = s.tracker.renumbers := by rw [hv.tracker]; rfl
  have halarms := completeStart_alarms v
  rw [hv.alarms, hrv] at halarms
  have hprobe := hv.probe.trans (timingLoss_probe s)
  obtain hc | hc := hcompletes
  · rw [hc]
    exact ⟨by simp [hv.align], by simp [hprobe], halarms, fun c => by simp [hv.lines c]⟩
  · rw [hc]
    exact ⟨by simp [hv.align], by simp [hprobe], by simpa using halarms, fun c => by simp [hv.lines c]⟩

/-- What an abort makes of the probe rests on the probe and the tick alone. -/
theorem probeAborted_congr {s t : State} (hp : t.probe = s.probe) (ht : t.tracker.tick = s.tracker.tick) {p : Probe}
    (h : ProbeAborted t p) : ProbeAborted s p := by
  unfold ProbeAborted at *
  rwa [hp, ht] at h

/-- Settles O15: the expiry is the same loss of timing as a lost clock, after the epoch start on prediction. -/
theorem holdoverExpires : Obligations.HoldoverExpires := by
  unfold Obligations.HoldoverExpires
  intro s w g href hw hg ht hh hs hb hp
  have hf := holdOver_fields hg
  have hexec : exec .holdoverEpochStart s = .next (expireHoldover (heldOver s)) :=
    congrArg Host.Outcome.next (holdoverStart_expires (windowPassed_at href hw hg ht) (by rw [hf]; exact hh))
  obtain ⟨halign, hbatches, hstore, hcarriers, hprobe, -, -, -, hcar⟩ := heldOver_keeps s
  have hs' : Scheduled (heldOver s) :=
    scheduled_congr hbatches (by simp [hcar]) (by simp [hcar]) (by simp [hcar]) (by simp [hcar]) hs
  have hb' : BlocksAccounted (heldOver s) := blocksAccounted_congr hbatches hstore hb
  have hp' : ProbeHoldsKey (heldOver s) := by
    unfold ProbeHoldsKey
    simp only [hcar, hprobe]
    exact hp
  have htracker : (heldOver s).tracker = _ := (heldOver_tracker s).trans hf
  have hrenumbers : (heldOver s).tracker.renumbers = s.tracker.renumbers := by rw [htracker]; rfl
  have hempty := expireHoldover_emptied hs' hb' hp'
  obtain ⟨halign', hprobe', halarms, hlines⟩ := expireHoldover_same (heldOver s)
  obtain ⟨-, k2, k3, k4, k5, k6, k7, k8, k9⟩ := takeNumber_keeps (heldOver s).tracker.expire
  have hfields := expireHoldover_tracker (heldOver s)
  refine ⟨_, hexec, by rw [hfields, k2]; rfl, by rw [hfields, k4]; rfl, by rw [hfields, k7]; rfl, by rw [hfields, k6]; rfl,
    by rw [hfields, k8]; rfl, by rw [hfields, k9]; rfl, by rw [hfields, k3]; rfl, by rw [hfields, k5, htracker]; rfl,
    by rw [halarms, heldOver_alarms, hrenumbers], hempty.batches, hempty.freeCount, halign'.trans halign, fun c => ?_⟩
  obtain ⟨hpower, hmarker⟩ := hlines c
  refine ⟨hempty.idle c, hempty.released c, expireHoldover_openSlots hs' hb' hp' c, hpower.trans (by rw [hcar]),
    hmarker.trans (by rw [hcar]), ?_, fun hr hm => ?_⟩
  · rw [hprobe']
    exact probeAborted_congr hprobe (by rw [htracker]) (probeAborted_abortProbe (heldOver s))
  · have hcycle : (heldOver s).tracker.startsCycleNext = false := by
      have hn : (heldOver s).tracker.takeNumber.epoch = numberTaken s := by
        rw [heldOver_tracker, (holdOver_numbers s.tracker).takes.1, takeNumber_epoch]
      unfold Tracker.startsCycleNext
      rw [hn]
      split
      · next e he => simpa [startsCycle] using hm e he
      · rfl
    refine slotsRecorded_loss hs' hp' c (hcar c).symm (fun sl => ?_) ?_
    · rw [htracker]; rfl
    · rw [expireHoldover_quiet (hrenumbers.trans hr) hcycle]
      simp [modTracker, recordAllOpen_sched]

end Sys2Proof.Machine
end

section
/-! The settled mark under every command, and the decision instants (O43). -/

namespace Sys2Proof.Machine

open Sys2Proof.Safety

/-! ### What the commands do to the settled mark -/

theorem frameSafe_settled (d : Carrier) (q : Option Fx) : FrameSafe fun s => (s.car d).sched.settled = q where
  heard _ _ _ h := h
  counted _ _ h := h
  offered f s h := by simpa using h

@[simp] theorem modCar_settled (c d : Carrier) (f : CarrierState → CarrierState) (s : State)
    (h : ∀ k, (f k).sched.settled = k.sched.settled) :
    ((State.modCar c f s).car d).sched.settled = (s.car d).sched.settled := by
  rw [State.modCar_car]
  split
  · subst d
    exact h _
  · rfl

section
variable (body : List Byte) (s : State) (d : Carrier)

theorem ownerTimeMark_settled : ((ownerTimeMark body s).car d).sched.settled = (s.car d).sched.settled := by
  unfold ownerTimeMark takeMark
  repeat' split
  all_goals simp

theorem acceptHeader_settled (id : BatchId) (c : Carrier) (h : HeaderFields) (n : CycleNo) :
    ((acceptHeader id c h n s).car d).sched.settled = (s.car d).sched.settled := by
  have hr : ((replaceClaimant c n h.start s).car d).sched.settled = (s.car d).sched.settled := by
    unfold replaceClaimant
    split <;> simp
  simpa [acceptHeader] using hr

theorem ownerHeader_settled : ((ownerHeader body s).car d).sched.settled = (s.car d).sched.settled := by
  unfold ownerHeader
  dsimp only
  split
  · simp
  · split
    · simp
    · exact acceptHeader_settled _ _ _ _ _ _

theorem ownerBlock_settled : ((ownerBlock body s).car d).sched.settled = (s.car d).sched.settled := by
  unfold ownerBlock
  dsimp only
  repeat' split
  all_goals simp

theorem ownerCancel_settled : ((ownerCancel body s).car d).sched.settled = (s.car d).sched.settled := by
  unfold ownerCancel
  dsimp only
  repeat' split
  all_goals simp

theorem ownerEnableService_settled : ((ownerEnableService body s).state.car d).sched.settled = (s.car d).sched.settled := by
  unfold ownerEnableService
  split <;> rfl

theorem ownerRestart_settled : ((ownerRestart body s).state.car d).sched.settled = (s.car d).sched.settled := by
  unfold ownerRestart
  split
  · rfl
  · simp [restartPart_car, restartCarrier, restartFlush]

theorem ownerLoadAlign_settled : ((ownerLoadAlign body s).state.car d).sched.settled = (s.car d).sched.settled := by
  unfold ownerLoadAlign
  dsimp only
  repeat' split
  all_goals rfl

theorem ownerCommitAlign_settled : ((ownerCommitAlign body s).state.car d).sched.settled = (s.car d).sched.settled := by
  unfold ownerCommitAlign
  dsimp only
  split <;> rfl

theorem ownerEpochSet_settled : ((ownerEpochSet body s).state.car d).sched.settled = (s.car d).sched.settled := by
  unfold ownerEpochSet
  split <;> rfl

theorem ownerStandby_settled : ((ownerStandby body s).state.car d).sched.settled = (s.car d).sched.settled := by
  unfold ownerStandby
  repeat' split
  all_goals simp

theorem ownerMarkerLoad_settled : ((ownerMarkerLoad body s).state.car d).sched.settled = (s.car d).sched.settled := by
  unfold ownerMarkerLoad
  dsimp only
  repeat' split
  all_goals simp [Answer.refuse]

theorem ownerMarkerClear_settled : ((ownerMarkerClear body s).state.car d).sched.settled = (s.car d).sched.settled := by
  unfold ownerMarkerClear
  split <;> simp [Answer.refuse]

theorem ownerProbeStart_settled : ((ownerProbeStart body s).state.car d).sched.settled = (s.car d).sched.settled := by
  unfold ownerProbeStart
  dsimp only
  repeat' split
  all_goals simp [Answer.refuse]

theorem ownerProbeAbort_settled : ((ownerProbeAbort body s).state.car d).sched.settled = (s.car d).sched.settled := by
  unfold ownerProbeAbort
  split <;> simp [Answer.refuse]

theorem ownerProbeResult_settled : ((ownerProbeResult body s).state.car d).sched.settled = (s.car d).sched.settled := by
  unfold ownerProbeResult
  dsimp only
  split <;> simp

theorem ownerGuardTest_settled : ((ownerGuardTest body s).state.car d).sched.settled = (s.car d).sched.settled := by
  unfold ownerGuardTest
  split <;> simp [Answer.refuse]

theorem ownerCounters_settled : ((ownerCounters body s).state.car d).sched.settled = (s.car d).sched.settled := by simp [ownerCounters]

theorem ownerClearAlarms_settled : ((ownerClearAlarms body s).state.car d).sched.settled = (s.car d).sched.settled := by simp [ownerClearAlarms]

end

theorem centreAfter_sched (r : Run) (k : CarrierState) : (centreAfter r k).sched = k.sched := by
  unfold centreAfter
  split <;> rfl

/-- Every command but the resets, LOAD_SITE and a decision keeps the settled marks. -/
theorem exec_settled {i : Instr} {s t : State} (hi : ∀ straps, i ≠ .powerOn straps ∧ i ≠ .resetPin straps)
    (hl : ∀ f, i ≠ .loadSite f) (hd : ∀ c, i ≠ .slotDecision c) (he : exec i s = .next t) (d : Carrier) :
    (t.car d).sched.settled = (s.car d).sched.settled := by
  have traffic {owner : List Byte → State → State}
      (ho : ∀ body s, ((owner body s).car d).sched.settled = (s.car d).sched.settled) (kind : Byte) (k : TrafficKind) (len : Nat)
      (f : RxFrame) : ((receiveUp kind (takeTraffic k len owner) f s).car d).sched.settled = (s.car d).sched.settled :=
    (frameSafe_settled d (s.car d).sched.settled).traffic kind k len (fun body _ h => (ho body _).trans h) f rfl
  have request {owner : List Byte → State → Answer}
      (ho : ∀ body s, ((owner body s).state.car d).sched.settled = (s.car d).sched.settled) (kind : Byte) (len : Nat)
      (f : RxFrame) : ((receiveUp kind (takeRequest len owner) f s).car d).sched.settled = (s.car d).sched.settled :=
    (frameSafe_settled d (s.car d).sched.settled).request kind len (fun body _ h => (ho body _).trans h) f rfl
  cases i <;> (injection he with he; subst he)
  case powerOn straps => exact absurd rfl (hi straps).1
  case resetPin straps => exact absurd rfl (hi straps).2
  case timeMark f => exact traffic (fun body s => ownerTimeMark_settled body s d) _ _ _ f
  case batchHeader f => exact traffic (fun body s => ownerHeader_settled body s d) _ _ _ f
  case batchBlock f => exact traffic (fun body s => ownerBlock_settled body s d) _ _ _ f
  case cancel f => exact traffic (fun body s => ownerCancel_settled body s d) _ _ _ f
  case loadSite f => exact absurd rfl (hl f)
  case enableService f => exact request (fun body s => ownerEnableService_settled body s d) _ _ f
  case restart f => exact request (fun body s => ownerRestart_settled body s d) _ _ f
  case status f => exact request (fun _ _ => rfl) _ _ f
  case counters f => exact request (fun body s => ownerCounters_settled body s d) _ _ f
  case clearAlarms f => exact request (fun body s => ownerClearAlarms_settled body s d) _ _ f
  case loadAlign f => exact request (fun body s => ownerLoadAlign_settled body s d) _ _ f
  case commitAlign f => exact request (fun body s => ownerCommitAlign_settled body s d) _ _ f
  case readAlign f => exact request (fun body s => by rw [ownerReadAlign_state]) _ _ f
  case epochSet f => exact request (fun body s => ownerEpochSet_settled body s d) _ _ f
  case schedule f => exact request (fun body s => by rw [ownerSchedule_state]) _ _ f
  case standby f => exact request (fun body s => ownerStandby_settled body s d) _ _ f
  case markerLoad f => exact request (fun body s => ownerMarkerLoad_settled body s d) _ _ f
  case markerClear f => exact request (fun body s => ownerMarkerClear_settled body s d) _ _ f
  case probeStart f => exact request (fun body s => ownerProbeStart_settled body s d) _ _ f
  case probeAbort f => exact request (fun body s => ownerProbeAbort_settled body s d) _ _ f
  case probeResult f => exact request (fun body s => ownerProbeResult_settled body s d) _ _ f
  case guardTest f => exact request (fun body s => ownerGuardTest_settled body s d) _ _ f
  case unknownRequest k f =>
    show ((unknownRequest k f s).car d).sched.settled = (s.car d).sched.settled
    unfold unknownRequest
    split
    · exact request (fun _ _ => rfl) _ _ f
    · rfl
  case clockLost => show ((clockLost s).car d).sched.settled = _; unfold clockLost; split <;> simp
  case clockReturn => show ((clockReturn s).car d).sched.settled = _; unfold clockReturn; split <;> simp
  case referenceClockEdge =>
    show ((clockEdge s).car d).sched.settled = _
    unfold clockEdge clockReturn
    dsimp only
    repeat' split
    all_goals simp
  case epochPulse =>
    show ((epochPulse s).car d).sched.settled = _
    unfold epochPulse
    repeat' split
    all_goals simp
  case holdoverEpochStart =>
    show ((holdoverStart s).car d).sched.settled = _
    unfold holdoverStart expireHoldover
    dsimp only
    repeat' split
    all_goals simp
  case downFrameRelay f =>
    show ((downFrameRelay f s).car d).sched.settled = _
    unfold downFrameRelay offerRelay
    dsimp only
    repeat' split
    all_goals simp
  case repeatTxStart => show ((repeatTxStart s).car d).sched.settled = _; unfold repeatTxStart; split <;> rfl
  case repeatTxEnd => show ((repeatTxEnd s).car d).sched.settled = _; unfold repeatTxEnd; split <;> rfl
  case upTxStart =>
    show ((upTxStart s).car d).sched.settled = _
    unfold upTxStart
    repeat' split
    all_goals rfl
  case upTxEnd => show ((upTxEnd s).car d).sched.settled = _; unfold upTxEnd; split <;> rfl
  case tableRoll =>
    show ((tableRoll s).car d).sched.settled = _
    unfold tableRoll
    dsimp only
    repeat' split
    all_goals simp
  case currentCycleAdvance c =>
    show ((currentCycleAdvance c s).car d).sched.settled = _
    unfold currentCycleAdvance
    repeat' split
    all_goals simp
  case slotDecision c => exact absurd rfl (hd c)
  case keyUp c => show ((keyUp c s).car d).sched.settled = _; simp
  case symbolEmit c =>
    show ((symbolEmit c s).car d).sched.settled = _
    unfold symbolEmit
    repeat' split
    all_goals simp
  case payloadEnd c =>
    show ((payloadEnd c s).car d).sched.settled = _
    unfold payloadEnd
    repeat' split
    all_goals simp [centreAfter_sched]
  case tailExpiry c => show ((tailExpiry c s).car d).sched.settled = _; unfold tailExpiry; split <;> simp
  case wakeExpiry c => show ((wakeExpiry c s).car d).sched.settled = _; unfold wakeExpiry; split <;> simp
  case slotEnd c => show ((slotEnd c s).car d).sched.settled = _; simp [slotEnd]
  case rfSenseChange c present =>
    show ((rfSenseChange c present s).car d).sched.settled = _
    unfold rfSenseChange
    dsimp only
    split <;> simp [sampleChange]
  case stuckCarrier c =>
    show ((stuckCarrier c s).car d).sched.settled = _
    unfold stuckCarrier
    repeat' split
    all_goals simp
  case modSenseChange c =>
    show ((modSenseChange c s).car d).sched.settled = _
    unfold modSenseChange takeSample
    dsimp only
    repeat' split
    all_goals simp
  case loadSettleEnd =>
    show ((loadSettleEnd s).car d).sched.settled = _
    unfold loadSettleEnd
    dsimp only
    repeat' split
    all_goals simp
  case keyUpEnd => show ((keyUpEnd s).car d).sched.settled = _; unfold keyUpEnd; split <;> simp
  case probeEmission =>
    show ((probeEmission s).car d).sched.settled = _
    unfold probeEmission
    repeat' split
    all_goals simp
  case edgeWindowClose =>
    show ((edgeWindowClose s).car d).sched.settled = _
    unfold edgeWindowClose
    repeat' split
    all_goals simp
  case probePhaseEnd => show ((probePhaseEnd s).car d).sched.settled = _; unfold probePhaseEnd; dsimp only; split <;> simp
  case keyDownEnd => show ((keyDownEnd s).car d).sched.settled = _; unfold keyDownEnd; split <;> simp
  case loadReturnEnd =>
    show ((loadReturnEnd s).car d).sched.settled = _
    unfold loadReturnEnd
    dsimp only
    repeat' split
    all_goals simp
  case observeEnd => show ((observeEnd s).car d).sched.settled = _; unfold observeEnd; split <;> simp
  case syncWordMatch p w =>
    show ((syncWordMatch p w s).car d).sched.settled = _
    unfold syncWordMatch
    repeat' split
    all_goals rfl

/-! ### The slot that is due (R86) -/

theorem dueSlot_some {c : Carrier} {s : State} {sl : SlotRef} (h : dueSlot c s = some sl) :
    (s.par c).enabled = true ∧ timingAvailable s = true ∧ sl ∈ candidateSlots s ∧
      s.now = decisionInstant (slotStart sl) (s.par c).lead ∧ unsettled c sl s = true := by
  unfold dueSlot at h
  split at h
  · next hc =>
    have hp := List.find?_some h
    simp only [Bool.and_eq_true, decide_eq_true_eq] at hc hp
    exact ⟨hc.1, hc.2, List.mem_of_find?_eq_some h, hp⟩
  · cases h

theorem dueSlot_isSome {c : Carrier} {s : State} {sl : SlotRef} (he : (s.par c).enabled = true) (ht : timingAvailable s = true)
    (hm : sl ∈ candidateSlots s) (hn : s.now = decisionInstant (slotStart sl) (s.par c).lead)
    (hu : unsettled c sl s = true) : ∃ x, dueSlot c s = some x := by
  rw [← Option.isSome_iff_exists, dueSlot, if_pos (by simp [he, ht]), List.find?_isSome]
  exact ⟨sl, hm, by simp [hn, hu]⟩

theorem mem_candidateSlots {s : State} {e : EpochNo} (he : s.tracker.epoch = some e) (sl : SlotRef) :
    sl ∈ candidateSlots s ↔ (∃ g p, s.tracker.current = some g ∧ p ≠ 0 ∧ sl = slotAt e p g) ∨
      ∃ g, s.tracker.next = some g ∧ sl = slotAt (e + 1) 0 g := by
  have hpos (g : Grid) : sl ∈ [slotAt e 1 g, slotAt e 2 g, slotAt e 3 g, slotAt e 4 g, slotAt e 5 g, slotAt e 6 g, slotAt e 7 g] ↔
      ∃ p : Fin 8, p ≠ 0 ∧ sl = slotAt e p g := by
    simp [Fin.exists_fin_succ]
  unfold candidateSlots
  rw [he, List.mem_append]
  cases s.tracker.current <;> cases s.tracker.next <;> simp [hpos]

/-- A timed machine has an epoch number, so each candidate is one of the grid it belongs to. -/
theorem candidate_place {s : State} {sl : SlotRef} (h : sl ∈ candidateSlots s) : ∃ e, s.tracker.epoch = some e ∧
    ((sl.pos ≠ 0 ∧ s.tracker.current = some sl.grid ∧ sl.cycle = BitVec.ofNat 30 (e.toNat / 4) ∧
        sl.index.val = 8 * (e.toNat % 4) + sl.pos.val) ∨
      (sl.pos = 0 ∧ s.tracker.next = some sl.grid ∧ sl.cycle = BitVec.ofNat 30 ((e + 1).toNat / 4) ∧
        sl.index.val = 8 * ((e + 1).toNat % 4))) := by
  have hindex (e : EpochNo) (p : Fin 8) (g : Grid) : (slotAt e p g).index.val = 8 * (e.toNat % 4) + p.val := by
    simp only [slotAt, Fin.val_ofNat]
    omega
  cases he : s.tracker.epoch with
  | none => simp [candidateSlots, he] at h
  | some e =>
    refine ⟨e, rfl, ?_⟩
    obtain ⟨g, p, hg, hp, rfl⟩ | ⟨g, hg, rfl⟩ := (mem_candidateSlots he sl).1 h
    · exact .inl ⟨hp, hg, rfl, hindex e p g⟩
    · exact .inr ⟨rfl, hg, rfl, hindex (e + 1) 0 g⟩

/-! ### A settled slot stays settled (R86, log 17) -/

theorem dueSlot_settled {c : Carrier} {s : State} {sl : SlotRef} (h : unsettled c sl s = false) : dueSlot c s ≠ some sl := by
  intro hd
  obtain ⟨-, -, -, -, hu⟩ := dueSlot_some hd
  rw [h] at hu
  cases hu

theorem openSlot_settled (c : Carrier) (sl : SlotRef) (s : State) :
    ((openSlot c sl s).car c).sched.settled = some (slotStart sl) := by
  rw [openSlot, modSched, State.modCar_car_same]

theorem decideSlot_settled (c : Carrier) (sl : SlotRef) (s : State) :
    ((decideSlot c sl s).car c).sched.settled = some (slotStart sl) := by
  simp [decideSlot, openSlot_settled]

theorem exec_slotDecision {c : Carrier} {s : State} {sl : SlotRef} (h : dueSlot c s = some sl) :
    exec (.slotDecision c) s = .next (decideSlot c sl s) :=
  congrArg Host.Outcome.next (by rw [slotDecision, h])

theorem exec_slotDecision_idle {c : Carrier} {s : State} (h : dueSlot c s = none) : exec (.slotDecision c) s = .next s :=
  congrArg Host.Outcome.next (by rw [slotDecision, h])

/-- The slot start `start` is settled on carrier `c`, and its mark and the candidates lie near `z`. -/
def SettledNear (c : Carrier) (z start : Fx) (s : State) : Prop :=
  settledBy (s.car c).sched.settled start = true ∧ MarkNear z (s.car c).sched.settled ∧
    ∀ x ∈ candidateSlots s, (slotStart x - z).toNat < 2 ^ 70

theorem settledNear_congr {c : Carrier} {z start : Fx} {s t : State} (h : SettledNear c z start s)
    (hk : (t.car c).sched.settled = (s.car c).sched.settled) (ht : t.tracker = s.tracker) : SettledNear c z start t := by
  unfold SettledNear
  rw [hk, candidateSlots_congr ht]
  exact h

theorem markNear_foldl {z : Fx} (sls : List SlotRef) {m : Option Fx} (hm : MarkNear z m)
    (hx : ∀ sl ∈ sls, (slotStart sl - z).toNat < 2 ^ 70) :
    MarkNear z (sls.foldl (fun t sl => laterStart t (slotStart sl)) m) := by
  induction sls generalizing m with
  | nil => exact hm
  | cons sl sls ih => exact ih (markNear_laterStart hm (hx sl (by simp))) fun x h => hx x (by simp [h])

theorem loadSite_settledNear {c : Carrier} {z start : Fx} (body : List Byte) {s : State} (h : SettledNear c z start s)
    (hs : (start - z).toNat < 2 ^ 70) : SettledNear c z start (loadSite body s) := by
  obtain ⟨hset, hm, hx⟩ := h
  obtain ⟨htracker, -⟩ := loadSite_same body s
  have hpassed : settledBy (passedMark (s.par c).lead (loadedParams body c).lead s (s.car c).sched.settled) start = true ∧
      MarkNear z (passedMark (s.par c).lead (loadedParams body c).lead s (s.car c).sched.settled) := by
    unfold passedMark
    split
    · have hx' := fun y (hy : y ∈ (candidateSlots s).filter fun sl =>
        tickReached s.now (decisionInstant (slotStart sl) (loadedParams body c).lead)) => hx y (List.mem_of_mem_filter hy)
      exact ⟨by rw [settledBy_foldl _ hm hx' hs, hset, Bool.true_or], markNear_foldl _ hm hx'⟩
    · exact ⟨hset, hm⟩
  unfold SettledNear
  rw [loadSite_car, candidateSlots_congr htracker]
  exact ⟨hpassed.1, hpassed.2, hx⟩

theorem exec_loadSite_settled {c : Carrier} {z start : Fx} (f : RxFrame) {s t : State} (h : SettledNear c z start s)
    (hs : (start - z).toNat < 2 ^ 70) (he : exec (.loadSite f) s = .next t) : SettledNear c z start t := by
  have safe : FrameSafe (SettledNear c z start) :=
    ⟨fun s _ _ h => settledNear_congr h rfl rfl, fun s _ h => settledNear_congr h rfl rfl,
      fun f s h => settledNear_congr h (by simp) (by simp)⟩
  injection he with he
  subst he
  refine safe.request _ _ (fun body s h => ?_) f h
  by_cases hv : s.mgmt.service = .serving
  · rw [ownerLoadSite_serving hv]
    exact h
  · have hu := loadSite_settledNear body h hs
    rwa [ownerLoadSite_taken hv]

/-- A decision moves its carrier's mark up to a slot that was not settled. -/
theorem exec_slotDecision_settled {c d : Carrier} {z start : Fx} {s t : State} (h : SettledNear c z start s)
    (hs : (start - z).toNat < 2 ^ 70) (he : exec (.slotDecision d) s = .next t) :
    settledBy (t.car c).sched.settled start = true := by
  obtain ⟨hset, hm, hx⟩ := h
  cases hd : dueSlot d s with
  | none =>
    rw [exec_slotDecision_idle hd] at he
    injection he with he
    exact he ▸ hset
  | some x =>
    rw [exec_slotDecision hd] at he
    injection he with he
    subst he
    by_cases hc : c = d
    · subst hc
      obtain ⟨-, -, hmem, -, hu⟩ := dueSlot_some hd
      have hxn := hx x hmem
      rw [unsettled_eq] at hu
      rw [decideSlot_settled]
      cases hk : (s.car c).sched.settled with
      | none =>
        rw [hk] at hset
        cases hset
      | some y =>
        have hyn := hm y hk
        rw [hk] at hset hu
        simp only [settledBy, Bool.not_not, Bool.not_eq_true', ← Bool.not_eq_true, fxAfter_iff hs hyn, fxAfter_iff hxn hyn,
          fxAfter_iff hs hxn] at hset hu ⊢
        omega
    · simpa [decideSlot, hc] using hset

theorem exec_keepsSettled {i : Instr} {c : Carrier} {z : Fx} {sl : SlotRef} {s t : State}
    (hi : ∀ straps, i ≠ .powerOn straps ∧ i ≠ .resetPin straps) (he : exec i s = .next t)
    (h : SettledNear c z (slotStart sl) s) (hs : (slotStart sl - z).toNat < 2 ^ 70) : unsettled c sl t = false := by
  rw [unsettled_eq, Bool.not_eq_false']
  by_cases hl : ∃ f, i = .loadSite f
  · obtain ⟨f, rfl⟩ := hl
    exact (exec_loadSite_settled f h hs he).1
  by_cases hd : ∃ d, i = .slotDecision d
  · obtain ⟨d, rfl⟩ := hd
    exact exec_slotDecision_settled h hs he
  rw [exec_settled hi (fun f hf => hl ⟨f, hf⟩) (fun d hf => hd ⟨d, hf⟩) he]
  exact h.1

/-- Settles O43: the due slot is read off the search, and the settled mark only moves up under every command. -/
theorem slotDecisionInstant : Obligations.DecisionInstant := by
  unfold Obligations.DecisionInstant
  intro c s
  refine ⟨fun sl hd => ?_, fun e sl hen ht he hsl hn hu => ?_, exec_slotDecision_idle, fun h => exec_slotDecision_idle ?_,
    fun i t z sl hi he hx hm hs hu => ?_⟩
  · obtain ⟨hen, ht, hmem, hn, hu⟩ := dueSlot_some hd
    refine ⟨hen, ht, hn, fun u hex => ?_, candidate_place hmem⟩
    rw [exec_slotDecision hd] at hex
    injection hex with hex
    have hset : unsettled c sl u = false := by
      rw [unsettled_eq, ← hex, decideSlot_settled]
      simp [settledBy, fxAfter]
    exact ⟨hset, dueSlot_settled hset⟩
  · obtain ⟨x, hx⟩ := dueSlot_isSome hen ht ((mem_candidateSlots he sl).2 hsl) hn hu
    refine ⟨⟨x, hx⟩, fun hone => ?_⟩
    obtain ⟨-, -, hmem, hnx, -⟩ := dueSlot_some hx
    have htick : fxTick (slotStart x) = fxTick (slotStart sl) := by
      have hsame : decisionInstant (slotStart x) (s.par c).lead = decisionInstant (slotStart sl) (s.par c).lead := by
        rw [← hnx]
        exact hn
      unfold decisionInstant tickSub at hsame
      bv_omega
    rw [hx, hone x hmem htick]
  · rw [dueSlot, if_neg]
    rcases h with h | h <;> simp [h]
  · have hset := exec_keepsSettled hi he (c := c) (z := z) ⟨by simpa [unsettled_eq] using hu, hm, hx⟩ hs
    exact ⟨hset, dueSlot_settled hset⟩

end Sys2Proof.Machine
end

section
/-! The maps that roll, the slots that end, and the current cycle (O44). -/

namespace Sys2Proof.Machine

open Sys2Proof.Safety

/-! ### The claims of a map as a list (R61) -/

theorem filterMap_single {α β : Type} {f : α → Option β} {l : List α} {i : α} {x : β} (hl : l.Nodup) (hi : i ∈ l)
    (hx : f i = some x) (hn : ∀ j ∈ l, j ≠ i → f j = none) : l.filterMap f = [x] := by
  induction l with
  | nil => cases hi
  | cons a l ih =>
    obtain ⟨ha, hl⟩ := List.nodup_cons.1 hl
    by_cases hai : a = i
    · subst hai
      rw [List.filterMap_cons_some hx, List.filterMap_eq_nil_iff.2]
      exact fun j hj => hn j (by simp [hj]) fun h => ha (h ▸ hj)
    · have hmem : i ∈ l := (List.mem_cons.1 hi).resolve_left (Ne.symm hai)
      rw [List.filterMap_cons_none (hn a (by simp) hai), ih hl hmem fun j hj => hn j (by simp [hj])]

theorem claimIds_eq (m : ClaimMap) : claimIds m = (List.finRange 32).filterMap m.get := by
  have hlist : m.toList = (List.finRange 32).map m.get := by
    refine List.ext_getElem (by simp) fun i h1 h2 => ?_
    simp [Vector.get_eq_getElem]
  rw [claimIds, hlist, List.filterMap_map]
  rfl

theorem mem_claimIds {m : ClaimMap} {id : BatchId} : id ∈ claimIds m ↔ ∃ i : Fin 32, m.get i = some id := by
  simp [claimIds_eq]

theorem claimIds_single {m : ClaimMap} {i : Fin 32} {id : BatchId} (hi : m.get i = some id) (hn : ∀ j, j ≠ i → m.get j = none) :
    claimIds m = [id] := by
  rw [claimIds_eq]
  exact filterMap_single (List.nodup_finRange 32) (List.mem_finRange i) hi fun j _ => hn j

/-! ### Stale claims (R62, log 14) -/

/-- The batches of stale claims all end; the other batches and carriers stand. -/
theorem endStale_ends {c : Carrier} {ids : List BatchId} {s : State}
    (h : ∀ id ∈ ids, ∀ b, findBatch id s = some b → b.carrier = c) :
    (∀ id, findBatch id (endStale c ids s) = if id ∈ ids then none else findBatch id s) ∧
      ∀ d, d ≠ c → (endStale c ids s).car d = s.car d := by
  induction ids generalizing s with
  | nil => exact ⟨fun _ => rfl, fun _ _ => rfl⟩
  | cons x ids ih =>
    have hfind (id : BatchId) : findBatch id (endBatch x .noTiming (assignByRun c .noTiming x s)) =
        if id = x then none else findBatch id s := by
      rw [findBatch_endBatch, findBatch_congr (assignByRun_keeps _ _ _ _).2.2.1]
    have hcar (d : Carrier) (hd : d ≠ c) : (endBatch x .noTiming (assignByRun c .noTiming x s)).car d = s.car d := by
      have hfx : findBatch x (assignByRun c .noTiming x s) = findBatch x s := findBatch_congr (assignByRun_keeps _ _ _ _).2.2.1 x
      cases hb : findBatch x s with
      | none => rw [endBatch_none (hfx.trans hb)]; simp [hd]
      | some b =>
        obtain ⟨-, -, -, -, hothers⟩ := endBatch_some (hfx.trans hb) .noTiming
        rw [hothers d (by rw [h x (by simp) b hb]; exact hd)]
        simp [hd]
    obtain ⟨ihf, ihc⟩ := ih (s := endBatch x .noTiming (assignByRun c .noTiming x s)) fun id hid b hb => by
      rw [hfind] at hb
      split at hb
      · cases hb
      · exact h id (by simp [hid]) b hb
    refine ⟨fun id => ?_, fun d hd => ?_⟩
    · rw [endStale, ihf, hfind]
      by_cases hx : id = x <;> simp [hx]
    · rw [endStale, ihc d hd, hcar d hd]

/-- A stale claim's one batch, with no run and no slot 31 recorded early: NO_TIMING in the open span, and counted. -/
theorem endStale_single {c : Carrier} {id : BatchId} {s : State} {b : Batch} (hb : findBatch id s = some b) (hc : b.carrier = c) :
    ((endStale c [id] s).car c).counters = { (s.car c).counters with dropped := satInc (s.car c).counters.dropped } ∧
      (NoRuns (s.car c).timer → (s.car c).sched.closed = none → ((endStale c [id] s).car c).sched.openSlots =
        coded (inSpan s.tracker) { code := .noTiming, id := some id } (s.car c).sched.openSlots) := by
  subst hc
  have hb' : findBatch id (assignByRun b.carrier .noTiming id s) = some b :=
    (findBatch_congr (assignByRun_keeps _ _ _ _).2.2.1 id).trans hb
  obtain ⟨-, -, -, hcar, -⟩ := endBatch_some hb' .noTiming
  rw [endStale, endStale, hcar, assignByRun_eq, modSched, State.modCar_car_same]
  refine ⟨rfl, fun ⟨ha, hm, hf⟩ hclosed => ?_⟩
  have hruns : ∀ r ∈ (s.car b.carrier).timer.runs, r.names id = false := by simp [LaunchTimer.runs, ha, hm, hf]
  show codedByRun _ _ _ _ = _
  rw [codedByRun_unnamed hruns]
  congr 1
  funext x
  simp [spanTest, hclosed]

theorem clearClaim_absent {id : BatchId} {m : ClaimMap} (h : ∀ i, m.get i ≠ some id) : clearClaim id m = m := by
  refine Vector.ext fun i hi => ?_
  have hne := h ⟨i, hi⟩
  rw [Vector.get_eq_getElem] at hne
  rw [clearClaim, Vector.getElem_map]
  exact if_neg hne

/-- Stale claims that do not stand in the next map leave it. -/
theorem endStale_next {c d : Carrier} {ids : List BatchId} {s : State}
    (h : ∀ id ∈ ids, ∀ i, (s.car d).maps.next.get i ≠ some id) :
    ((endStale c ids s).car d).maps.next = (s.car d).maps.next := by
  induction ids generalizing s with
  | nil => rfl
  | cons x ids ih =>
    have hstep : ((endBatch x .noTiming (assignByRun c .noTiming x s)).car d).maps.next = (s.car d).maps.next := by
      cases hb : findBatch x (assignByRun c .noTiming x s) with
      | none => rw [endBatch_none hb]; simp
      | some b =>
        obtain ⟨-, -, -, hcar, hothers⟩ := endBatch_some hb .noTiming
        by_cases hd : d = b.carrier
        · subst hd
          rw [hcar]
          simpa [dropFromCarrier] using clearClaim_absent (h x (by simp))
        · rw [hothers d hd]
          simp
    rw [endStale, ih fun id hid i => by rw [hstep]; exact h id (by simp [hid]) i, hstep]

/-! ### Maps one cycle behind (R62) -/

theorem prevCycle_ne (n : CycleNo) : n - 1 ≠ n := by
  intro h
  bv_omega

/-- Maps one cycle behind roll: what stood for the current cycle ends. -/
theorem bringMaps_behind {c : Carrier} {s : State} {n : CycleNo} (hm : currentCycle c s = some n)
    (hl : (s.car c).maps.label = some (n - 1)) : bringMaps c s =
      setMaps c { label := some n, current := ((endStale c (claimIds (s.car c).maps.current) s).car c).maps.next
                  next := ClaimMap.empty } (endStale c (claimIds (s.car c).maps.current) s) := by
  have hne : ¬ some (n - 1) = some n := fun h => prevCycle_ne n (Option.some.inj h)
  simp only [bringMaps, hm, hl, if_neg hne, if_true]

theorem bringMaps_rolled {c : Carrier} {s : State} {n : CycleNo} (hm : currentCycle c s = some n)
    (hl : (s.car c).maps.label = some (n - 1)) (he : EmptyMap (s.car c).maps.current) : bringMaps c s =
      s.setCar c { s.car c with maps := { label := some n, current := (s.car c).maps.next, next := ClaimMap.empty } } := by
  rw [bringMaps_behind hm hl, claimIds_empty he]
  rfl

/-- A decision brings the maps up to date first. -/
theorem decideSlot_bringMaps {c : Carrier} {s : State} {n : CycleNo} (sl : SlotRef) (hm : currentCycle c (bringMaps c s) = some n)
    (hl : ((bringMaps c s).car c).maps.label = some n) : decideSlot c sl (bringMaps c s) = decideSlot c sl s := by
  unfold decideSlot
  rw [bringMaps_current hm hl]

theorem currentCycle_congr {c : Carrier} {s t : State} (ht : t.tracker = s.tracker) (hp : t.par c = s.par c)
    (hk : (t.car c).sched.settled = (s.car c).sched.settled) : currentCycle c t = currentCycle c s := by
  unfold currentCycle startPassed startSettled timingAvailable State.now
  rw [ht, hp, hk]

theorem dueSlot_congr {c : Carrier} {s t : State} (ht : t.tracker = s.tracker) (hp : t.par c = s.par c)
    (hk : (t.car c).sched.settled = (s.car c).sched.settled) : dueSlot c t = dueSlot c s := by
  unfold dueSlot timingAvailable unsettled startSettled State.now
  rw [ht, hp, hk, candidateSlots_congr ht]

theorem currentCycleAdvance_eq {c : Carrier} {s : State} (h : ∀ sl, dueSlot c s = some sl → sl.index ≠ 0) :
    exec (.currentCycleAdvance c) s = .next (bringMaps c s) := by
  refine congrArg Host.Outcome.next ?_
  unfold currentCycleAdvance
  split
  · next sl hd => rw [if_neg (h sl hd)]
  · rfl

/-- A claim of the current map does not stand in the next: it is of the label's cycle. -/
theorem claim_notNext {s : State} (h : Scheduled s) {c : Carrier} {m : CycleNo} (hl : (s.car c).maps.label = some m)
    {i : Fin 32} {id : BatchId} (hi : (s.car c).maps.current.get i = some id) (j : Fin 32) :
    (s.car c).maps.next.get j ≠ some id := by
  intro hj
  obtain ⟨b, hb, -, -, hcycle, -⟩ := ((h.2 c).1.2 m hl i id).1 hi
  obtain ⟨x, hx, -, -, hnext, -⟩ := ((h.2 c).1.2 m hl j id).2 hj
  obtain rfl := Option.some.inj (hb.symm.trans hx)
  exact ne_nextCycle m (hcycle.symm.trans hnext)

/-- The batch of a claim of the current map. -/
theorem claim_carrier {s : State} (h : Scheduled s) {c : Carrier} {m : CycleNo} (hl : (s.car c).maps.label = some m) {i : Fin 32}
    {id : BatchId} (hi : (s.car c).maps.current.get i = some id) : ∃ b, findBatch id s = some b ∧ b.carrier = c := by
  obtain ⟨b, hb, hc, -⟩ := ((h.2 c).1.2 m hl i id).1 hi
  exact ⟨b, hb, hc⟩

/-! ### Slot 0 of the next cycle (R62, R86) -/

theorem slotStart_first (e : EpochNo) (g : Grid) : slotStart (slotAt e 0 g) = g.pred := by
  simp [slotStart, slotAt, gridStart, fxAdd]

theorem unsettled_first (c : Carrier) (e : EpochNo) (g : Grid) (s : State) :
    unsettled c (slotAt e 0 g) s = !startSettled c g.pred s := by
  rw [unsettled, slotStart_first]

theorem currentCycle_untimed {c : Carrier} {s : State} (h : timingAvailable s = false) : currentCycle c s = none := by
  simp [currentCycle, h]

/-- The current cycle by the decision instant of slot 0 of the next, or the mark on it. -/
theorem currentCycle_timed (c : Carrier) {s : State} {e : EpochNo} (ht : timingAvailable s = true)
    (he : s.tracker.epoch = some e) :
    ((e + 1).toNat % 4 ≠ 0 ∨ s.tracker.next = none → currentCycle c s = some (BitVec.ofNat 30 (e.toNat / 4))) ∧
      ∀ g, (e + 1).toNat % 4 = 0 → s.tracker.next = some g →
        let reached := tickReached s.tracker.tick (fxTick g.pred - BitVec.ofNat 56 ((s.par c).lead * 10000 + 25000))
        (reached = true ∨ unsettled c (slotAt (e + 1) 0 g) s = false →
          currentCycle c s = some (BitVec.ofNat 30 ((e + 1).toNat / 4))) ∧
        (reached = false → unsettled c (slotAt (e + 1) 0 g) s = true →
          currentCycle c s = some (BitVec.ofNat 30 (e.toNat / 4))) := by
  have hcycle (n : EpochNo) : BitVec.ofNat 30 (n.toNat / 4) = cycleOf n := rfl
  refine ⟨fun h => ?_, fun g h4 hg => ⟨fun h => ?_, fun hr hu => ?_⟩⟩
  · simp only [currentCycle, ht, he, if_true]
    cases hn : s.tracker.next with
    | none => rfl
    | some g =>
      have h4 : startsCycle (e + 1) = false := beq_false_of_ne (h.resolve_right (by simp [hn]))
      simp only [h4, Bool.false_and, Bool.false_eq_true, if_false, hcycle]
  · have hpassed : startPassed c g.pred s = true := by
      rw [unsettled_first, Bool.not_eq_false'] at h
      rw [startPassed, Bool.or_eq_true]
      exact h
    have hfirst : startsCycle (e + 1) = true := beq_iff_eq.2 h4
    simp only [currentCycle, ht, he, hg, hfirst, hpassed, Bool.and_self, if_true, hcycle]
  · have hpassed : startPassed c g.pred s = false := by
      rw [unsettled_first, Bool.not_eq_true'] at hu
      rw [startPassed, hu, Bool.or_false]
      exact hr
    simp only [currentCycle, ht, he, hg, hpassed, Bool.and_false, Bool.false_eq_true, if_false, if_true, hcycle]

/-- After the decision of slot 0 the current cycle is its cycle, whatever the leads become. -/
theorem currentCycle_decided {c : Carrier} {s u : State} {sl : SlotRef} (hd : dueSlot c s = some sl) (hi : sl.index = 0)
    (ht : u.tracker = (decideSlot c sl s).tracker) (hk : (u.car c).sched.settled = some (slotStart sl)) :
    currentCycle c u = some sl.cycle := by
  obtain ⟨-, htime, hmem, -, -⟩ := dueSlot_some hd
  have htracker : u.tracker = s.tracker := ht.trans (by simp)
  obtain ⟨e, he, hplace⟩ := candidate_place hmem
  have hi0 : sl.index.val = 0 := congrArg Fin.val hi
  obtain ⟨hp, -, -, hidx⟩ | ⟨hp, hg, hcycle, hidx⟩ := hplace
  · exact absurd (Fin.ext (by simp only [Fin.val_zero]; omega)) hp
  · have hstart : slotStart sl = sl.grid.pred := by simp [slotStart, hp, gridStart, fxAdd]
    rw [hcycle]
    refine currentCycle_settled (by rw [timingAvailable, htracker]; exact htime) (by rw [htracker]; exact he)
      (by rw [htracker]; exact hg) (beq_iff_eq.2 (by omega)) ?_
    rw [startSettled_eq, hk, hstart]
    simp [settledBy, fxAfter]

/-! ### The end of a slot (R24, R102) -/

/-- A slot recorded under its own cycle, or in an unlabelled array, or in another cycle's. -/
theorem record_cases (a : OutcomeArray) (o : OpenSlot) :
    (a.label = none ∨ a.label = some o.slot.cycle →
      (a.record o).label = some o.slot.cycle ∧
      (a.record o).entries.get o.slot.index = (a.entries.get o.slot.index).or o.held ∧
      ∀ i, i ≠ o.slot.index → (a.record o).entries.get i = a.entries.get i) ∧
    (∀ n, a.label = some n → n ≠ o.slot.cycle → a.record o = a) := by
  unfold OutcomeArray.record
  refine ⟨fun h => ?_, fun n hn hne => ?_⟩
  · have hlabel : a.label.getD o.slot.cycle = o.slot.cycle := by rcases h with h | h <;> simp [h]
    rw [if_pos hlabel]
    refine ⟨rfl, by simp [Vector.get_eq_getElem], fun i hi => ?_⟩
    rw [Vector.get_eq_getElem, Vector.getElem_set_ne _ _ (fun h => hi (Fin.ext h.symm)), Vector.get_eq_getElem]
  · rw [hn, Option.getD_some, if_neg hne]

theorem slotEnd_recorded {c : Carrier} {s : State} {o : OpenSlot} {rest : List OpenSlot}
    (ho : (s.car c).sched.openSlots = o :: rest) (hend : slotEndTick s.tracker o.slot = some s.tracker.tick)
    (hrest : ∀ x ∈ rest, slotEndTick s.tracker x.slot ≠ some s.tracker.tick) : ∃ a,
    exec (.slotEnd c) s = .next (s.setCar c { s.car c with
      sched := { (s.car c).sched with openSlots := rest, outcomes := a } }) ∧
    ((s.car c).sched.outcomes.label = none ∨ (s.car c).sched.outcomes.label = some o.slot.cycle →
      a.label = some o.slot.cycle ∧
      a.entries.get o.slot.index =
        (match (s.car c).sched.outcomes.entries.get o.slot.index with
         | some x => some x
         | none => o.held) ∧
      ∀ i, i ≠ o.slot.index → a.entries.get i = (s.car c).sched.outcomes.entries.get i) ∧
    (∀ n, (s.car c).sched.outcomes.label = some n → n ≠ o.slot.cycle → a = (s.car c).sched.outcomes) := by
  obtain ⟨hown, hother⟩ := record_cases (s.car c).sched.outcomes o
  refine ⟨(s.car c).sched.outcomes.record o, congrArg Host.Outcome.next ?_, fun h => ?_, hother⟩
  · have hpicked : rest.filter (fun x => decide (slotEndTick s.tracker x.slot = some s.now)) = [] :=
      List.filter_eq_nil_iff.2 fun x hx => decide_eq_true_iff.not.2 (hrest x hx)
    have hkept : rest.filter (fun x => !decide (slotEndTick s.tracker x.slot = some s.now)) = rest :=
      List.filter_eq_self.2 fun x hx => congrArg Bool.not (decide_eq_false (hrest x hx))
    have hnow : slotEndTick s.tracker o.slot = some s.now := hend
    simp only [slotEnd, recordSlots, modSched, State.modCar, ho, List.filter_cons, hnow, decide_true, if_true, hpicked,
      Bool.not_true, Bool.false_eq_true, if_false, hkept, List.foldl_cons, List.foldl_nil]
  · obtain ⟨hlabel, hentry, hothers⟩ := hown h
    refine ⟨hlabel, ?_, hothers⟩
    rw [hentry]
    cases (s.car c).sched.outcomes.entries.get o.slot.index <;> rfl

/-- Settles O44: the maps by the cycle they stand for, the slots that end, and the current cycle by slot 0 of the next. -/
theorem slotsAndMapsTurnOver : Obligations.SlotsAndMapsTurnOver := by
  unfold Obligations.SlotsAndMapsTurnOver
  refine ⟨fun c s sl n hd hm hl he => ?_, fun c s n hm hd hl hs => ?_, fun c s o rest ho hend hrest => ?_,
    fun c s => ⟨currentCycle_untimed, fun e ht he => ?_⟩, fun c s sl hd hi => ?_, fun c s n hm hd => ⟨fun hl => ?_, fun hl he => ?_⟩⟩
  · rw [← bringMaps_rolled hm hl he, exec_slotDecision hd]
    have hdue : dueSlot c (bringMaps c s) = some sl := by
      rw [← hd]
      exact dueSlot_congr (by simp) (by simp) (by simp)
    have hcycle : currentCycle c (bringMaps c s) = some n := by
      rw [← hm]
      exact currentCycle_congr (by simp) (by simp) (by simp)
    rw [exec_slotDecision hdue, decideSlot_bringMaps sl hcycle (bringMaps_label hm)]
  · have hcarrier (id : BatchId) (hid : id ∈ claimIds (s.car c).maps.current) (b : Batch) (hb : findBatch id s = some b) :
        b.carrier = c := by
      obtain ⟨i, hi⟩ := mem_claimIds.1 hid
      obtain ⟨x, hx, hc⟩ := claim_carrier hs hl hi
      exact Option.some.inj (hb.symm.trans hx) ▸ hc
    obtain ⟨hfind, hcars⟩ := endStale_ends hcarrier
    have hnext := endStale_next (c := c) (d := c) (s := s) (ids := claimIds (s.car c).maps.current) fun id hid j => by
      obtain ⟨i, hi⟩ := mem_claimIds.1 hid
      exact claim_notNext hs hl hi j
    refine ⟨bringMaps c s, currentCycleAdvance_eq hd, ?_⟩
    rw [bringMaps_behind hm hl]
    refine ⟨by simp [setMaps], by simpa [setMaps] using hnext, by simp [setMaps, emptyMap_empty], fun id => ?_, fun i id hi hone => ?_,
      fun d hdc => ?_⟩
    · rw [findBatch_congr (setMaps_keeps _ _ _).2.2.1, hfind]
      simp only [mem_claimIds]
    · obtain ⟨b, hb, hc⟩ := claim_carrier hs hl hi
      rw [claimIds_single hi hone, setMaps, State.modCar_car_same]
      exact endStale_single hb hc
    · rw [(setMaps_keeps _ _ _).2.2.2.2.2.2.2.2.2.2.2 d hdc, hcars d hdc]
  · exact slotEnd_recorded ho hend hrest
  · exact currentCycle_timed c ht he
  · exact ⟨_, exec_slotDecision hd, fun u ht hk => currentCycle_decided hd hi ht (hk.trans (decideSlot_settled c sl s))⟩
  · rw [currentCycleAdvance_eq hd, bringMaps_current hm hl]
  · rw [currentCycleAdvance_eq hd, bringMaps_rolled hm hl he]

end Sys2Proof.Machine
end

section
/-! What a slot decision does to the slot being decided and to the rest of the machine (R87 to R96). -/

namespace Sys2Proof.Machine

open Sys2Proof.Safety

/-! ### The other carriers -/

/-- The record of `id`, while it stands, is of carrier `c`. -/
def HomeOf (c : Carrier) (id : BatchId) (s : State) : Prop := ∀ b, findBatch id s = some b → b.carrier = c

theorem homeOf_congr {c : Carrier} {id : BatchId} {s t : State} (hb : t.batches = s.batches) (h : HomeOf c id s) :
    HomeOf c id t := by
  intro b hf
  rw [findBatch_congr hb] at hf
  exact h b hf

theorem homeOf_endBatch {c : Carrier} {id : BatchId} {s : State} (h : HomeOf c id s) (x : BatchId) (why : EndReason) :
    HomeOf c id (endBatch x why s) := by
  intro b hf
  rw [findBatch_endBatch] at hf
  split at hf
  · cases hf
  · exact h b hf

theorem homeOf_onAir {c : Carrier} {id : BatchId} {s : State} (h : Scheduled s) (ha : (s.car c).sched.onAir = some id) :
    HomeOf c id s := by
  obtain ⟨-, -, -, -, hair, -⟩ := h.2 c
  obtain ⟨x, hx, hc⟩ := hair id ha
  intro b hb
  exact Option.some.inj (hx.symm.trans hb) ▸ hc

theorem homeOf_stack {c : Carrier} {id : BatchId} {s : State} (h : Scheduled s) (hi : id ∈ (s.car c).sched.stack) :
    HomeOf c id s := by
  obtain ⟨-, -, -, -, -, hstack, -⟩ := h.2 c
  obtain ⟨x, hx, hc⟩ := hstack id hi
  intro b hb
  exact Option.some.inj (hx.symm.trans hb) ▸ hc

/-- The end of a batch touches no carrier but its own. -/
theorem endBatch_others {c : Carrier} {id : BatchId} {s : State} (h : HomeOf c id s) (why : EndReason) {d : Carrier} (hd : d ≠ c) :
    (endBatch id why s).car d = s.car d := by
  cases hf : findBatch id s with
  | none => rw [endBatch_none hf]
  | some b =>
    obtain ⟨-, -, -, -, hothers⟩ := endBatch_some hf why
    exact hothers d (by rw [h b hf]; exact hd)

theorem codedEnd_others {c : Carrier} {id : BatchId} {s : State} (h : HomeOf c id s) (sl : SlotRef) (k : OutcomeCode)
    (x : Option BatchId) (why : EndReason) {d : Carrier} (hd : d ≠ c) :
    (endBatch id why (assignCode c sl k x s)).car d = s.car d := by
  rw [endBatch_others (homeOf_congr (by simp) h) why hd]
  simp [hd]

section
variable {c d : Carrier} (sl : SlotRef) {s : State}

theorem displaceOldest_others (h : Scheduled s) (hd : d ≠ c) : (displaceOldest c sl s).car d = s.car d := by
  unfold displaceOldest
  split
  · split
    · next id hid => exact codedEnd_others (homeOf_stack h (List.mem_of_getLast? hid)) _ _ _ _ hd
    · rfl
  · rfl

theorem pushOnAir_others (h : Scheduled s) (id : BatchId) (hd : d ≠ c) : (pushOnAir c sl id s).car d = s.car d := by
  simp [pushOnAir, modSched, State.modCar_car_other, hd, displaceOldest_others sl h hd]

theorem stopBatch_others {id : BatchId} (h : HomeOf c id s) (why : StopReason) (hd : d ≠ c) :
    (stopBatch c sl id why s).car d = s.car d := by
  unfold stopBatch
  dsimp only
  split
  · simp [modSched, State.modCar_car_other, hd]
  · exact codedEnd_others h _ _ _ _ hd

theorem marksOnAir_others (h : Scheduled s) (hd : d ≠ c) : (marksOnAir c sl s).car d = s.car d := by
  unfold marksOnAir
  split
  · next a ha =>
    split_ifs
    · exact stopBatch_others sl (homeOf_onAir h (onAirBatch_some ha).1) _ hd
    · exact pushOnAir_others sl h _ hd
    · rfl
  · rfl

theorem markerStep_others (h : Scheduled s) (hd : d ≠ c) : (markerStep c sl s).2.car d = s.car d := by
  unfold markerStep
  dsimp only
  split <;> simp [hd, State.modCar_car_other, marksOnAir_others sl h hd]

theorem claimantStep_others {b : Option Batch} (h : Scheduled s) (hb : ∀ x, b = some x → HomeOf c x.id s) (hd : d ≠ c) :
    (claimantStep c sl b s).2.car d = s.car d := by
  cases b with
  | none => rfl
  | some b =>
    have hdrop (k : OutcomeCode) (why : EndReason) : (dropClaimant c sl b k why s).car d = s.car d :=
      codedEnd_others (hb b rfl) _ _ _ _ hd
    unfold claimantStep
    dsimp only
    split_ifs
    · exact hdrop _ _
    · exact hdrop _ _
    · exact hdrop _ _
    · split
      · split_ifs
        · exact pushOnAir_others sl h _ hd
        · exact hdrop _ _
      · rfl

theorem continueStep_others (p : Option Program) (h : Scheduled s) (hd : d ≠ c) : (continueStep c sl p s).2.car d = s.car d := by
  unfold continueStep
  split
  · rfl
  · next a ha =>
    have hhome := homeOf_onAir h (onAirBatch_some ha).1
    split_ifs
    · rfl
    · exact stopBatch_others sl hhome _ hd
    · exact stopBatch_others sl hhome _ hd
    · rfl

theorem resumeStep_others {ids : List BatchId} (h : ∀ id ∈ ids, HomeOf c id s) (hd : d ≠ c) :
    (resumeStep c sl ids s).2.car d = s.car d := by
  induction ids generalizing s with
  | nil => rfl
  | cons id ids ih =>
    have hrest : ∀ x ∈ ids, HomeOf c x s := fun x hx => h x (List.mem_cons_of_mem _ hx)
    unfold resumeStep
    split
    · split_ifs
      · rfl
      · rw [ih fun x hx => homeOf_endBatch (homeOf_congr (by simp) (hrest x hx)) _ _]
        exact codedEnd_others (h id List.mem_cons_self) _ _ _ _ hd
    · exact ih hrest

theorem trafficSteps_others {b : Option Batch} (h : Scheduled s) (hb : ∀ x, b = some x → HomeOf c x.id s)
    (hs : ∀ x, b = some x → x.state = .complete → MayStart c x.id s) (hd : d ≠ c) :
    (trafficSteps c sl b s).2.car d = s.car d := by
  obtain ⟨h4, f4⟩ := scheduled_claimantStep c sl b h hs
  obtain ⟨h5, -⟩ := scheduled_continueStep c sl _ h4 f4
  have hcontinued : (continueStep c sl (claimantStep c sl b s).1 (claimantStep c sl b s).2).2.car d = s.car d := by
    rw [continueStep_others sl _ h4 hd, claimantStep_others sl h hb hd]
  have hresumed := resumeStep_others sl (fun id hid => homeOf_stack h5 hid) hd
  unfold trafficSteps
  dsimp only
  split
  · exact hcontinued
  · split
    · rw [hresumed, hcontinued]
    · rw [(assignCode_keeps ..).2.2.2.2.2.2.2.2.2.2.2 d hd, hresumed, hcontinued]

theorem decisionSteps_others {b : Option Batch} (h : Scheduled s) (hb : ∀ x, b = some x → HomeOf c x.id s)
    (hs : ∀ x, b = some x → x.state = .complete → MayStart c x.id s) (hd : d ≠ c) :
    (decisionSteps c sl b s).2.car d = s.car d := by
  have hgate (k : OutcomeCode) (why : EndReason) : (gateHolds c sl b k why s).car d = s.car d := by
    cases b with
    | none => simp [gateHolds, hd]
    | some b => exact codedEnd_others (hb b rfl) _ _ _ _ hd
  unfold decisionSteps
  split_ifs
  · exact hgate _ _
  · exact hgate _ _
  · exact markerStep_others sl h hd
  · exact trafficSteps_others sl h hb hs hd

theorem takeProgram_others (p : Program) (hd : d ≠ c) : (takeProgram c sl p s).car d = s.car d := by
  unfold takeProgram
  repeat' split
  all_goals simp [hd, programBatch, launchRun, bringOnAir, modSched, State.modCar_car_other]

end

/-! ### The state within a decision (R61, R86, R87) -/

/-- The state as the decision of slot `sl` begins: its claim consumed, the slot open and settled. -/
def opened (c : Carrier) (sl : SlotRef) (s : State) : State := openSlot c sl (consumeClaim c sl s)

section
variable (c : Carrier) (sl : SlotRef) (s : State)

@[simp] theorem opened_keeps :
    (opened c sl s).tracker = s.tracker ∧ (opened c sl s).align = s.align ∧ (opened c sl s).batches = s.batches ∧
    (opened c sl s).store = s.store ∧ (opened c sl s).probe = s.probe ∧ (opened c sl s).link = s.link ∧
    (opened c sl s).mgmt = s.mgmt ∧ (∀ d, (opened c sl s).par d = s.par d) ∧ (opened c sl s).now = s.now ∧
    (∀ x, findBatch x (opened c sl s) = findBatch x s) ∧ ∀ d, d ≠ c → (opened c sl s).car d = s.car d := by
  simp +contextual [opened, findBatch]

@[simp] theorem opened_fields (d : Carrier) :
    ((opened c sl s).car d).timer = (s.car d).timer ∧ ((opened c sl s).car d).word = (s.car d).word ∧
    ((opened c sl s).car d).key = (s.car d).key ∧ ((opened c sl s).car d).power = (s.car d).power ∧
    ((opened c sl s).car d).monitor = (s.car d).monitor ∧ ((opened c sl s).car d).marker = (s.car d).marker ∧
    ((opened c sl s).car d).counters = (s.car d).counters ∧ ((opened c sl s).car d).sched.onAir = (s.car d).sched.onAir ∧
    ((opened c sl s).car d).sched.stop = (s.car d).sched.stop ∧ ((opened c sl s).car d).sched.incoming = (s.car d).sched.incoming ∧
    ((opened c sl s).car d).sched.stack = (s.car d).sched.stack ∧
    ((opened c sl s).car d).sched.goodStarts = (s.car d).sched.goodStarts := by
  simp [opened]

/-- The claimant's claim leaves the map of the slot's cycle. -/
theorem opened_car {c : Carrier} {sl : SlotRef} {s : State} (hl : (s.car c).maps.label = some sl.cycle) :
    (opened c sl s).car c = { s.car c with
      maps := { (s.car c).maps with current := (s.car c).maps.current.set sl.index.val none sl.index.isLt }
      sched := { (s.car c).sched with
        openSlots := (s.car c).sched.openSlots ++ [{ slot := sl, program := .quiet, held := none }]
        settled := some (slotStart sl) } } := by
  unfold opened openSlot consumeClaim
  rw [if_pos hl, modSched, State.modCar_car_same, setMaps, State.modCar_car_same]

theorem opened_scheduled {c : Carrier} {s : State} (h : Scheduled s) (sl : SlotRef) : Scheduled (opened c sl s) :=
  scheduled_modSched (scheduled_consumeClaim c sl h) c fun _ => ⟨rfl, rfl, rfl⟩

end

/-- The claimant's record is of the carrier, and may start once it is COMPLETE. -/
theorem claimant_placed {c : Carrier} {sl : SlotRef} {s : State} (h : Scheduled s) {b : Batch}
    (hb : slotClaimant c sl s = some b) :
    HomeOf c b.id (opened c sl s) ∧ (b.state = .complete → MayStart c b.id (opened c sl s)) := by
  refine ⟨?_, fun hs => mayStart_congr (by simp [opened]) (by simp [opened]) (mayStart_claimant h hb hs)⟩
  unfold slotClaimant at hb
  split at hb
  case isFalse => cases hb
  next hl =>
  obtain ⟨id, hclaim, hfind⟩ := Option.bind_eq_some_iff.1 hb
  obtain ⟨rfl, -⟩ := findBatch_some hfind
  obtain ⟨x, hx, hc, -⟩ := ((h.2 c).1.2 _ hl sl.index b.id).1 hclaim
  intro y hy
  rw [(opened_keeps c sl s).2.2.2.2.2.2.2.2.2.1] at hy
  exact Option.some.inj (hx.symm.trans hy) ▸ hc

/-- With the maps up to date, a decision is its steps on the opened slot, and the program taken. -/
theorem exec_decides {c : Carrier} {sl : SlotRef} {s u : State} {p : Program} (hd : dueSlot c s = some sl)
    (hm : currentCycle c s = some sl.cycle) (hl : (s.car c).maps.label = some sl.cycle)
    (hp : decisionSteps c sl (slotClaimant c sl s) (opened c sl s) = (p, u)) :
    exec (.slotDecision c) s = .next (takeProgram c sl p (setProgram c sl p u)) := by
  rw [exec_slotDecision hd]
  unfold opened at hp
  simp only [decideSlot, bringMaps_current hm hl, hp]

/-- A decision touches no carrier but its own. -/
theorem exec_decides_others {c d : Carrier} {sl : SlotRef} {s u : State} {p : Program} (h : Scheduled s) (hd : d ≠ c)
    (hp : decisionSteps c sl (slotClaimant c sl s) (opened c sl s) = (p, u)) :
    (takeProgram c sl p (setProgram c sl p u)).car d = s.car d := by
  have hsteps := decisionSteps_others sl (opened_scheduled h sl) (b := slotClaimant c sl s)
    (fun x hx => (claimant_placed h hx).1) (fun x hx => (claimant_placed h hx).2) hd
  rw [hp] at hsteps
  rw [takeProgram_others sl p hd, (setProgram_keeps ..).2.2.2.2.2.2.2.2.2.2.2 d hd, hsteps]
  simp [hd]

/-! ### The slot being decided (R87, R100, R102) -/

/-- The slot `sl` is open, under program `p` with code `h`, after the open slots `l` of carrier `c`, and is none of them. -/
def Deciding (c : Carrier) (sl : SlotRef) (l : List OpenSlot) (p : Program) (h : Option SlotOutcome) (u : State) : Prop :=
  (∀ o ∈ l, o.slot ≠ sl) ∧ (u.car c).sched.openSlots = l ++ [{ slot := sl, program := p, held := h }]

section
variable {c : Carrier} {sl : SlotRef} {l : List OpenSlot} {p : Program} {h : Option SlotOutcome} {u t : State}

theorem deciding_opened {s : State} (hf : ∀ o ∈ (s.car c).sched.openSlots, o.slot ≠ sl)
    (hl : (s.car c).maps.label = some sl.cycle) :
    Deciding c sl (s.car c).sched.openSlots .quiet none (opened c sl s) :=
  ⟨hf, by rw [opened_car hl]⟩

theorem deciding_congr (hd : Deciding c sl l p h u) (hk : (t.car c).sched.openSlots = (u.car c).sched.openSlots) :
    Deciding c sl l p h t := ⟨hd.1, hk.trans hd.2⟩

theorem deciding_assignCode (hd : Deciding c sl l p h u) (k : OutcomeCode) (id : Option BatchId) :
    Deciding c sl l p (mergeCode h { code := k, id := id }) (assignCode c sl k id u) := by
  obtain ⟨hfresh, hslots⟩ := hd
  refine ⟨hfresh, ?_⟩
  have hl : coded (fun r => r = sl) { code := k, id := id } l = l :=
    coded_nowhere (fun x hx => decide_eq_false (hfresh x hx)) _
  rw [assignCode, modSched_sched, if_pos rfl]
  dsimp only
  rw [hslots, assignIn_open (sl := sl) ⟨_, List.mem_append_right _ (List.mem_singleton.2 rfl), rfl⟩]
  unfold coded at *
  rw [List.map_append, hl]
  simp

theorem deciding_codedEnd (hd : Deciding c sl l p h u) (k : OutcomeCode) (x : Option BatchId) (id : BatchId) (why : EndReason) :
    Deciding c sl l p (mergeCode h { code := k, id := x }) (endBatch id why (assignCode c sl k x u)) :=
  deciding_congr (deciding_assignCode hd k x) (by simp)

theorem deciding_setProgram (hd : Deciding c sl l p h u) (q : Program) : Deciding c sl l q h (setProgram c sl q u) := by
  obtain ⟨hfresh, hslots⟩ := hd
  refine ⟨hfresh, ?_⟩
  rw [setProgram, modSched_sched, if_pos rfl]
  dsimp only
  rw [hslots, List.map_append]
  congr 1
  · exact (List.map_congr_left fun o ho => if_neg (hfresh o ho)).trans (List.map_id _)
  · simp

/-- The program taken, the slot holds what the steps assigned, under that program. -/
theorem deciding_taken (hd : Deciding c sl l p h u) (q : Program) :
    ((takeProgram c sl q (setProgram c sl q u)).car c).sched.openSlots = l ++ [{ slot := sl, program := q, held := h }] := by
  obtain ⟨-, hslots⟩ := deciding_setProgram hd q
  simpa using hslots

end

end Sys2Proof.Machine
end

section
/-! The decision steps, one rule for each branch, and the program taken (R87 to R96, R112). -/

namespace Sys2Proof.Machine

open Sys2Proof.Safety

/-! ### The gates and the branches (R88 to R93) -/

section
variable {c : Carrier} {sl : SlotRef} {b : Option Batch} {u v w x : State}

theorem decisionSteps_probe (h : probeOn c u = true) :
    decisionSteps c sl b u = (.quiet, gateHolds c sl b .measuring .measuring u) := if_pos h

theorem decisionSteps_power (h : probeOn c u = false) (hp : (u.car c).power ≠ .active) :
    decisionSteps c sl b u = (.quiet, gateHolds c sl b .waking .waking u) := by
  rw [decisionSteps, if_neg (by simp [h]), if_pos hp]

theorem decisionSteps_marker (h : probeOn c u = false) (hp : (u.car c).power = .active) (hm : markerDue c sl u = true) :
    decisionSteps c sl b u = markerStep c sl u := by
  rw [decisionSteps, if_neg (by simp [h]), if_neg (by simp [hp]), if_pos hm]

theorem decisionSteps_traffic (h : probeOn c u = false) (hp : (u.car c).power = .active) (hm : markerDue c sl u = false) :
    decisionSteps c sl b u = trafficSteps c sl b u := by
  rw [decisionSteps, if_neg (by simp [h]), if_neg (by simp [hp]), if_neg (by simp [hm])]

/-- Steps 4 and 5 fix a program. -/
theorem trafficSteps_fixed {p4 : Option Program} {p : Program} (h4 : claimantStep c sl b u = (p4, v))
    (h5 : continueStep c sl p4 v = (some p, w)) : trafficSteps c sl b u = (p, w) := by
  simp only [trafficSteps, h4, h5]

/-- Step 6 fixes one. -/
theorem trafficSteps_resumed {p4 : Option Program} {p : Program} (h4 : claimantStep c sl b u = (p4, v))
    (h5 : continueStep c sl p4 v = (none, w)) (h6 : resumeStep c sl (w.car c).sched.stack w = (some p, x)) :
    trafficSteps c sl b u = (p, x) := by
  simp only [trafficSteps, h4, h5, h6]

/-- No step fixes one. -/
theorem trafficSteps_quiet {p4 : Option Program} (h4 : claimantStep c sl b u = (p4, v))
    (h5 : continueStep c sl p4 v = (none, w)) (h6 : (w.car c).sched.stack = []) :
    trafficSteps c sl b u = (.quiet, assignCode c sl .quiet none w) := by
  simp only [trafficSteps, h4, h5, h6, resumeStep]

end

/-! ### The on-air batch in a step (R90, R91, R92) -/

theorem remaining_iff (a : Batch) : a.remaining = true ↔ Remains a := by
  unfold Batch.remaining Remains
  cases a.last <;> simp

theorem rowEnabled_iff {c : Carrier} {b : Batch} (hc : b.carrier = c) (s : State) : rowEnabled b s = true ↔ RowOn c b s := by
  subst hc
  rfl

theorem onAirBatch_of {c : Carrier} {s : State} {a : Batch} (ha : (s.car c).sched.onAir = some a.id)
    (hf : findBatch a.id s = some a) : onAirBatch c s = some a := by
  rw [onAirBatch, ha]
  exact hf

theorem onAirBatch_none {c : Carrier} {s : State} (ha : (s.car c).sched.onAir = none) : onAirBatch c s = none := by
  rw [onAirBatch, ha]
  rfl

section
variable {c : Carrier} {sl : SlotRef} {u : State} {a : Batch} (p : Option Program)

theorem continueStep_empty (ha : (u.car c).sched.onAir = none) : continueStep c sl p u = (p, u) := by
  simp only [continueStep, onAirBatch_none ha]

theorem continueStep_finished (ha : onAirBatch c u = some a) (hr : ¬ Remains a) : continueStep c sl p u = (p, u) := by
  have hrem : a.remaining = false := by rwa [← Bool.not_eq_true, remaining_iff]
  simp [continueStep, ha, hrem]

theorem continueStep_stops (ha : onAirBatch c u = some a) (hc : a.carrier = c) {why : StopReason} {code : OutcomeCode}
    (hs : Stops c a u why code) : continueStep c sl p u = (p, stopBatch c sl a.id why u) ∧ code = why.code := by
  obtain ⟨hr, ⟨hp, rfl, rfl⟩ | ⟨hp, hrow, rfl, rfl⟩⟩ := hs
  · simp [continueStep, ha, (remaining_iff a).2 hr, hp, StopReason.code]
  · have hoff : rowEnabled a u = false := by rwa [← Bool.not_eq_true, rowEnabled_iff hc]
    simp [continueStep, ha, (remaining_iff a).2 hr, hp, hoff, StopReason.code]

theorem continueStep_continues (ha : onAirBatch c u = some a) (hc : a.carrier = c) (hr : Remains a) (hp : a.cancelPending = false)
    (hrow : RowOn c a u) : continueStep c sl p u = (some (p.getD (.cont a.id)), u) := by
  simp [continueStep, ha, (remaining_iff a).2 hr, hp, (rowEnabled_iff hc u).2 hrow]

end

/-! ### The claimant (R91) -/

section
variable {c : Carrier} {sl : SlotRef} {u : State} {b : Batch}

/-- The code and the end reason of a claimant that cannot start. -/
def dropCode (b : Batch) : OutcomeCode × EndReason :=
  if b.state = .complete then (.notInGroup, .notInGroup)
  else if b.malformed then (.malformed, .malformed) else (.incomplete, .incomplete)

theorem claimantStep_drops (hc : b.carrier = c) (h : b.state ≠ .complete ∨ ¬ RowOn c b u) :
    claimantStep c sl (some b) u = (none, dropClaimant c sl b (dropCode b).1 (dropCode b).2 u) := by
  unfold claimantStep dropCode
  dsimp only
  by_cases hs : b.state = .complete
  · have hoff : rowEnabled b u = false := by
      rw [← Bool.not_eq_true, rowEnabled_iff hc]
      exact h.resolve_left (not_not.2 hs)
    simp [hs, hoff]
  · by_cases hm : b.malformed = true <;> simp [hs, hm]

/-- Without an on-air batch to outrank, a COMPLETE claimant starts. -/
theorem claimantStep_starts (hc : b.carrier = c) (hs : b.state = .complete) (hrow : RowOn c b u) (hr : rival c u = none) :
    claimantStep c sl (some b) u = (some (.start b.id), u) := by
  simp [claimantStep, hs, (rowEnabled_iff hc u).2 hrow, hr]

theorem claimantStep_preempts {a : Batch} (hc : b.carrier = c) (hs : b.state = .complete) (hrow : RowOn c b u)
    (hr : rival c u = some a) (hp : a.priority < b.priority) :
    claimantStep c sl (some b) u = (some (.start b.id), pushOnAir c sl a.id u) := by
  simp [claimantStep, hs, (rowEnabled_iff hc u).2 hrow, hr, hp]

theorem claimantStep_overlaps {a : Batch} (hc : b.carrier = c) (hs : b.state = .complete) (hrow : RowOn c b u)
    (hr : rival c u = some a) (hp : b.priority ≤ a.priority) :
    claimantStep c sl (some b) u = (none, dropClaimant c sl b .overlap .overlap u) := by
  simp [claimantStep, hs, (rowEnabled_iff hc u).2 hrow, hr, not_lt.2 hp]

theorem rival_empty (ha : (u.car c).sched.onAir = none) : rival c u = none := by
  simp only [rival, onAirBatch_none ha]

theorem rival_remains {a : Batch} (ha : onAirBatch c u = some a) (hr : Remains a) (hp : a.cancelPending = false) :
    rival c u = some a := by
  simp [rival, ha, (remaining_iff a).2 hr, hp]

theorem rival_weak {a : Batch} (ha : onAirBatch c u = some a) (h : ¬ Remains a ∨ a.cancelPending = true) : rival c u = none := by
  obtain hr | hp := h
  · have hrem : a.remaining = false := by rwa [← Bool.not_eq_true, remaining_iff]
    simp [rival, ha, hrem]
  · simp [rival, ha, hp]

end

/-! ### Ends, stops and pushes on the carrier of the decision (R60, R92, R94) -/

section
variable {c : Carrier} {sl : SlotRef} {u : State}

theorem findBatch_assignCode (k : OutcomeCode) (x : Option BatchId) (id : BatchId) :
    findBatch id (assignCode c sl k x u) = findBatch id u := findBatch_congr (by simp) id

/-- A batch of the carrier that ends with a code: the record leaves, and what it held on the carrier. -/
theorem codedEnd_car {id : BatchId} {b : Batch} (hf : findBatch id u = some b) (hc : b.carrier = c) (k : OutcomeCode)
    (x : Option BatchId) (why : EndReason) :
    (endBatch id why (assignCode c sl k x u)).car c = { dropFromCarrier id ((assignCode c sl k x u).car c) with
      counters := endCounters why (u.car c).counters } := by
  have hf' : findBatch id (assignCode c sl k x u) = some b := (findBatch_assignCode k x id).trans hf
  obtain ⟨-, -, -, hcar, -⟩ := endBatch_some hf' why
  rw [hc] at hcar
  rw [hcar]
  simp

theorem findBatch_codedEnd (id : BatchId) (k : OutcomeCode) (x : Option BatchId) (why : EndReason) (y : BatchId) :
    findBatch y (endBatch id why (assignCode c sl k x u)) = if y = id then none else findBatch y u := by
  rw [findBatch_endBatch, findBatch_assignCode]

theorem held_iff (id : BatchId) : ((u.car c).timer.runs.any fun r => r.names id) = true ↔ Held c id u := by
  simp [Held]

/-- A stop that waits for a payload end. -/
theorem stopBatch_held {id : BatchId} (h : Held c id u) (why : StopReason) : stopBatch c sl id why u =
    modSched c (fun x => { x with stop := some why }) (assignCode c sl why.code (some id) u) := by
  unfold stopBatch
  dsimp only
  rw [if_pos]
  simpa using (held_iff id).2 h

/-- A stop that ends its batch at once. -/
theorem stopBatch_unheld {id : BatchId} (h : ¬ Held c id u) (why : StopReason) : stopBatch c sl id why u =
    endBatch id why.reason (assignCode c sl why.code (some id) u) := by
  unfold stopBatch
  dsimp only
  rw [if_neg]
  rw [← held_iff] at h
  simpa using h

theorem displaceOldest_roomy (h : (u.car c).sched.stack.length < 4) : displaceOldest c sl u = u :=
  if_neg (Nat.not_le.2 h)

theorem displaceOldest_full {rest : List BatchId} {x : BatchId} (h : (u.car c).sched.stack = rest ++ [x]) (hn : rest.length = 3) :
    displaceOldest c sl u = endBatch x .displaced (assignCode c sl .displaced (some x) u) := by
  unfold displaceOldest
  rw [if_pos (by rw [h]; simp [hn, Config.stackDepth]), h]
  simp

/-- A push of the on-air batch over the state with room on the stack. -/
theorem findBatch_pushOnAir (id y : BatchId) : findBatch y (pushOnAir c sl id u) =
    if y = id then (findBatch y (displaceOldest c sl u)).map fun b => { b with state := .suspended }
    else findBatch y (displaceOldest c sl u) := by
  exact (findBatch_congr rfl y).trans (findBatch_modBatch (f := fun b => { b with state := .suspended }) (fun _ => rfl) _ y)

theorem pushOnAir_sched (id : BatchId) : ((pushOnAir c sl id u).car c).sched =
    { ((displaceOldest c sl u).car c).sched with
      onAir := none, stop := none, stack := id :: ((displaceOldest c sl u).car c).sched.stack } := by
  rw [pushOnAir, modSched_sched, if_pos rfl]
  simp

end

/-! ### Resume (R93) -/

section
variable {c : Carrier} {sl : SlotRef} {u : State} {x : Batch} {rest : List BatchId}

theorem resumeStep_on (hf : findBatch x.id u = some x) (hc : x.carrier = c) (hrow : RowOn c x u) :
    resumeStep c sl (x.id :: rest) u = (some (.resume x.id), u) := by
  simp [resumeStep, hf, (rowEnabled_iff hc u).2 hrow]

theorem resumeStep_off (hf : findBatch x.id u = some x) (hc : x.carrier = c) (hrow : ¬ RowOn c x u) :
    resumeStep c sl (x.id :: rest) u =
      resumeStep c sl rest (endBatch x.id .notInGroup (assignCode c sl .notInGroup (some x.id) u)) := by
  have hoff : rowEnabled x u = false := by rwa [← Bool.not_eq_true, rowEnabled_iff hc]
  simp [resumeStep, hf, hoff]

end

end Sys2Proof.Machine
end

section
/-! A decision under the probe gate or the power gate (O38). -/

namespace Sys2Proof.Machine

open Sys2Proof.Safety

theorem assignCode_same (c : Carrier) (sl : SlotRef) (k : OutcomeCode) (id : Option BatchId) (u : State) :
    (assignCode c sl k id u).car c = { u.car c with sched := { (u.car c).sched with
      openSlots := assignIn sl { code := k, id := id } (u.car c).sched.openSlots } } := by
  rw [assignCode, modSched, State.modCar_car_same]

theorem setProgram_same (c : Carrier) (sl : SlotRef) (p : Program) (u : State) :
    (setProgram c sl p u).car c = { u.car c with sched := ((setProgram c sl p u).car c).sched } := by
  rw [setProgram, modSched, State.modCar_car_same]

/-- A claim that is gone does not come back with the end of a batch. -/
theorem endBatch_claimGone {c : Carrier} {u : State} {i : Fin 32} (h : (u.car c).maps.current.get i = none) (id : BatchId)
    (why : EndReason) : ((endBatch id why u).car c).maps.current.get i = none := by
  cases hx : ((endBatch id why u).car c).maps.current.get i with
  | none => rfl
  | some x =>
    have hold := (((endBatch_maps id why u c).2 i x).1 hx).symm.trans h
    cases hold

section
variable {c : Carrier} {sl : SlotRef} {s : State}

theorem opened_claimGone (hl : (s.car c).maps.label = some sl.cycle) :
    ((opened c sl s).car c).maps.current.get sl.index = none := by
  rw [opened_car hl]
  exact (claimMap_get_set _ _ _ _).trans (if_pos rfl)

/-- A slot without a claim has no claimant. -/
theorem slotClaimant_none (hn : (s.car c).maps.current.get sl.index = none) : slotClaimant c sl s = none := by
  unfold slotClaimant
  rw [hn]
  exact ite_self _

/-- A claim is of a batch of the carrier, PENDING or COMPLETE, that stands nowhere on it. -/
theorem slotClaimant_some (h : Scheduled s) (hl : (s.car c).maps.label = some sl.cycle) {id : BatchId}
    (hi : (s.car c).maps.current.get sl.index = some id) : ∃ b, slotClaimant c sl s = some b ∧ b.id = id ∧
      findBatch id s = some b ∧ b.carrier = c ∧ (s.car c).sched.onAir ≠ some id ∧ (s.car c).sched.incoming ≠ some id ∧
      id ∉ (s.car c).sched.stack := by
  obtain ⟨b, hb, hc, -, -, hstate, hinc⟩ := ((h.2 c).1.2 _ hl sl.index id).1 hi
  obtain ⟨rfl, -⟩ := findBatch_some hb
  subst hc
  obtain ⟨hair, hstack⟩ := waiting_placed h hb hstate
  refine ⟨b, ?_, rfl, hb, rfl, hair, hinc, hstack⟩
  unfold slotClaimant
  rw [if_pos hl, hi]
  exact hb

/-- A claimant dropped by the decision leaves the Scheduler, but for the code of its slot. -/
theorem dropClaimant_same {b : Batch} (hl : (s.car c).maps.label = some sl.cycle) (hf : findBatch b.id s = some b)
    (hc : b.carrier = c) (ha : (s.car c).sched.onAir ≠ some b.id) (hi : (s.car c).sched.incoming ≠ some b.id)
    (hs : b.id ∉ (s.car c).sched.stack) (k : OutcomeCode) (why : EndReason) :
    (dropClaimant c sl b k why (opened c sl s)).car c =
      { dropFromCarrier b.id ((assignCode c sl k (some b.id) (opened c sl s)).car c) with
        sched := ((assignCode c sl k (some b.id) (opened c sl s)).car c).sched
        counters := endCounters why (s.car c).counters } := by
  have hf' : findBatch b.id (opened c sl s) = some b := by simpa using hf
  have hsched := dropFromCarrier_sched (id := b.id) (k := (assignCode c sl k (some b.id) (opened c sl s)).car c)
    (by simpa [opened_car hl] using ha) (by simpa [opened_car hl] using hi) (by simpa [opened_car hl] using hs)
  rw [dropClaimant, codedEnd_car hf' hc, ← hsched, opened_car hl]

end

/-- Settles O38: the gate's code goes to the slot, and the claimant, if any, ends. -/
theorem decisionGated : Obligations.DecisionGated := by
  unfold Obligations.DecisionGated
  intro c s sl hd hm hl hfresh hs hgate
  have hpower : ((opened c sl s).car c).power = (s.car c).power := by rw [opened_car hl]
  have hprobe : probeOn c (opened c sl s) = probeOn c s := by simp [probeOn]
  obtain ⟨why, hwhy, hsteps⟩ : ∃ why, why ≠ .sent ∧ decisionSteps c sl (slotClaimant c sl s) (opened c sl s) =
      (.quiet, gateHolds c sl (slotClaimant c sl s) (if probeOn c s = true then .measuring else .waking) why (opened c sl s)) := by
    cases hp : probeOn c s with
    | true => exact ⟨.measuring, by simp, decisionSteps_probe (hprobe.trans hp)⟩
    | false =>
      refine ⟨.waking, by simp, decisionSteps_power (hprobe.trans hp) ?_⟩
      rw [hpower]
      exact hgate.resolve_left (by simp [hp])
  generalize (if probeOn c s = true then OutcomeCode.measuring else .waking) = code at hsteps ⊢
  have hothers := fun d (hdc : d ≠ c) => exec_decides_others (d := d) hs hdc hsteps
  refine ⟨_, exec_decides hd hm hl hsteps, ?_⟩
  have hopened := deciding_opened hfresh hl
  cases hclaim : (s.car c).maps.current.get sl.index with
  | none =>
    rw [slotClaimant_none hclaim] at hothers ⊢
    have hslots := deciding_taken (deciding_assignCode hopened code none) .quiet
    refine ⟨hslots, ?_⟩
    simp only [takeProgram, gateHolds]
    refine ⟨by simp [opened_claimGone hl], by simp [opened_car hl], by simp [opened_car hl], by simp [opened_car hl],
      by simp [opened_car hl], by simp [opened_car hl], by simp [opened_car hl], fun id hid => (by cases hid),
      fun _ => ⟨by simp, by simp [opened_car hl], by simp [opened_car hl]⟩, ?_, by simp, by simp, by simp, by simp, by simp,
      hothers⟩
    rw [setProgram_same, assignCode_same, opened_car hl]
  | some id =>
    obtain ⟨b, hb, rfl, hf, hc, hair, hinc, hstack⟩ := slotClaimant_some hs hl hclaim
    rw [hb] at hothers ⊢
    have hslots := deciding_taken (deciding_codedEnd hopened code (some b.id) b.id why) .quiet
    have hcar := dropClaimant_same hl hf hc hair hinc hstack code why
    simp only [takeProgram, gateHolds] at hothers ⊢
    refine ⟨hslots, ?_, by simp [hcar, opened_car hl], by simp [hcar, opened_car hl], by simp [opened_car hl],
      by simp [opened_car hl], by simp [opened_car hl], by simp [opened_car hl], fun id hid => ?_, fun h => (by cases h), ?_,
      by simp, by simp, by simp, by simp, by simp, hothers⟩
    · simp [dropClaimant, endBatch_claimGone, opened_claimGone hl]
    · obtain rfl := Option.some.inj hid
      refine ⟨?_, by simp [hcar, endCounters, hwhy]⟩
      have hended : findBatch b.id (dropClaimant c sl b code why (opened c sl s)) = none :=
        (findBatch_codedEnd _ _ _ _ _).trans (if_pos rfl)
      exact (findBatch_congr (by simp) _).trans hended
    · rw [setProgram_same, hcar, assignCode_same, opened_car hl]
      rfl

end Sys2Proof.Machine
end

section
/-! The program a decision takes, and the decisions without a claimant (O42). -/

namespace Sys2Proof.Machine

open Sys2Proof.Safety

/-! ### Programs taken (R87, R95, R96) -/

theorem slotBlocks_last {b : Batch} {l : LastMark} (h : b.last = some l) :
    slotBlocks b = min b.rate.blocks (l.index + 1 - b.nextBlock) := by
  rw [slotBlocks, Batch.remainingCount, h]

/-- The run of a batch program. -/
def batchRun (c : Carrier) (sl : SlotRef) (b : Batch) (s : State) : Run :=
  formRun c sl b.group b.rate
    (.batch b.id b.nextBlock (slotBlocks b) b.modulation (b.last.getD { index := 0, count := 0 })) s

theorem formRun_congr {s t : State} (h : t.align = s.align) (c : Carrier) (sl : SlotRef) (g : Fin 16) (rate : RateClass)
    (content : RunContent) : formRun c sl g rate content t = formRun c sl g rate content s := by
  unfold formRun slotOffset activeRow activeWords activeRecord
  rw [h]

theorem batchRun_congr {s t : State} (h : t.align = s.align) (c : Carrier) (sl : SlotRef) (b : Batch) :
    batchRun c sl b t = batchRun c sl b s := formRun_congr h c sl b.group b.rate _

theorem keyProgram_timer (now : Tick) (lead : Nat) (r : Run) (k : CarrierState) : (keyProgram now lead r k).timer = k.timer := by
  unfold keyProgram openPeriod
  cases k.key <;> dsimp only
  split <;> rfl

theorem placeRun_active {r : Run} {t : LaunchTimer} (h : t.active = none) :
    placeRun r t = { t with active := some { r with pos := 0 }, acc := r.launch, step := r.tfx } := by
  simp only [placeRun, h, LaunchTimer.activate]

theorem placeRun_armed {r x : Run} {t : LaunchTimer} (h : t.active = some x) : placeRun r t = { t with armed := some r } := by
  simp only [placeRun, h]

/-- A run handed over becomes the active or the armed one, and Key Control receives it (R32, R112). -/
theorem launchRun_same (c : Carrier) (sl : SlotRef) (g : Fin 16) (rate : RateClass) (content : RunContent) (s : State) :
    (launchRun c sl g rate content s).car c = keyProgram s.now (s.par c).lead (formRun c sl g rate content s)
      { s.car c with timer := placeRun (formRun c sl g rate content s) (s.car c).timer } := by
  rw [launchRun, State.modCar_car_same, show (latchIf _ _ s).car c = s.car c by simp]

section
variable {c : Carrier} {sl : SlotRef} {b : Batch} {v : State}

theorem findBatch_programBatch (y : BatchId) : findBatch y (programBatch c sl b v) =
    if y = b.id then (findBatch y v).map fun x => { x with nextBlock := x.nextBlock + slotBlocks b } else findBatch y v :=
  (findBatch_congr (by simp [programBatch]) y).trans
    (findBatch_modBatch (f := fun x => { x with nextBlock := x.nextBlock + slotBlocks b }) (fun _ => rfl) v y)

theorem programBatch_same : (programBatch c sl b v).car c = keyProgram v.now (v.par c).lead (batchRun c sl b v)
    { v.car c with timer := placeRun (batchRun c sl b v) (v.car c).timer } := by
  have hrun (k : RunContent) (f : Batch → Batch) : formRun c sl b.group b.rate k (modBatch b.id f v) = formRun c sl b.group b.rate k v :=
    formRun_congr (by simp) _ _ _ _ _
  rw [programBatch, launchRun_same, hrun]
  simp only [modBatch_keeps]
  rfl

theorem programBatch_timer : ((programBatch c sl b v).car c).timer = placeRun (batchRun c sl b v) (v.car c).timer := by
  rw [programBatch_same, keyProgram_timer]

/-- With nothing on air a batch brought on air is ON_AIR (R96). -/
theorem bringOnAir_airs {id : BatchId} (ha : (v.car c).sched.onAir = none) :
    ((bringOnAir c id v).car c).sched = { (v.car c).sched with
      onAir := some id, stop := none, incoming := none, stack := (v.car c).sched.stack.filter fun y => y ≠ id } ∧
    ∀ y, findBatch y (bringOnAir c id v) =
      if y = id then (findBatch y v).map fun x => { x with state := .onAir } else findBatch y v := by
  have hair : ((modSched c (fun x => { x with incoming := some id }) v).car c).sched.onAir = none := by simp [modSched_sched, ha]
  have hinc : ((modSched c (fun x => { x with incoming := some id }) v).car c).sched.incoming = some id := by simp [modSched_sched]
  rw [bringOnAir, handOver_some hair hinc]
  refine ⟨by simp [modSched_sched], fun y => ?_⟩
  exact (findBatch_modBatch (f := fun x => { x with state := .onAir }) (fun _ => rfl) _ y).trans rfl

/-- Over an on-air batch it is the incoming one (R96). -/
theorem bringOnAir_waits {id : BatchId} (ha : (v.car c).sched.onAir ≠ none) :
    ((bringOnAir c id v).car c).sched = { (v.car c).sched with incoming := some id } ∧
    ∀ y, findBatch y (bringOnAir c id v) = findBatch y v := by
  have hair : ((modSched c (fun x => { x with incoming := some id }) v).car c).sched.onAir ≠ none := by simp [modSched_sched, ha]
  rw [bringOnAir, handOver_none (.inl hair)]
  exact ⟨by simp [modSched_sched], fun y => rfl⟩

end

/-! ### The state after a program is taken -/

section
variable {c : Carrier} {sl : SlotRef} {b : Batch} {u : State} {p : Program}

theorem findBatch_setProgram (y : BatchId) : findBatch y (setProgram c sl p u) = findBatch y u := findBatch_congr (by simp) y

theorem takeProgram_continues (hf : findBatch b.id u = some b) :
    takeProgram c sl (.cont b.id) (setProgram c sl (.cont b.id) u) = programBatch c sl b (setProgram c sl (.cont b.id) u) := by
  have hf' : findBatch b.id (setProgram c sl (.cont b.id) u) = some b := (findBatch_setProgram _).trans hf
  simp only [takeProgram, hf']

/-- A START or a RESUME brings its batch on air and programs it, over a state in which only its slot, and its margin, moved. -/
theorem takeProgram_brings (hp : p = .start b.id ∨ p = .resume b.id) (hf : findBatch b.id u = some b) :
    ∃ w, takeProgram c sl p (setProgram c sl p u) = programBatch c sl b (bringOnAir c b.id w) ∧
      w.batches = u.batches ∧ w.align = u.align ∧ (w.car c).timer = (u.car c).timer ∧
      (w.car c).sched.onAir = (u.car c).sched.onAir ∧ (w.car c).sched.stop = (u.car c).sched.stop ∧
      (w.car c).sched.incoming = (u.car c).sched.incoming ∧ (w.car c).sched.stack = (u.car c).sched.stack ∧
      (w.car c).counters.dropped = (u.car c).counters.dropped := by
  have hf' (q : Program) : findBatch b.id (setProgram c sl q u) = some b := (findBatch_setProgram _).trans hf
  obtain rfl | rfl := hp
  · refine ⟨measureMargin c b (setProgram c sl (.start b.id) u), by simp only [takeProgram, hf'], by simp, by simp, by simp, by simp,
      by simp, by simp, by simp, ?_⟩
    unfold measureMargin countLowMargin modCounters modSched clearAlarmSet
    dsimp only
    split_ifs <;> simp
  · exact ⟨setProgram c sl (.resume b.id) u, by simp only [takeProgram, hf'], by simp, by simp, by simp, by simp, by simp, by simp,
      by simp, by simp⟩

/-- A batch continued: its next block moves past the slot's blocks. -/
theorem continued_facts (hf : findBatch b.id u = some b) {t : State}
    (ht : t = takeProgram c sl (.cont b.id) (setProgram c sl (.cont b.id) u)) :
    findBatch b.id t = some { b with nextBlock := b.nextBlock + slotBlocks b } ∧
      (∀ y, y ≠ b.id → findBatch y t = findBatch y u) ∧ (t.car c).timer = placeRun (batchRun c sl b u) (u.car c).timer ∧
      (t.car c).sched.onAir = (u.car c).sched.onAir ∧ (t.car c).sched.stack = (u.car c).sched.stack := by
  subst ht
  rw [takeProgram_continues hf, programBatch_timer, batchRun_congr (s := u) (by simp)]
  refine ⟨?_, fun y hy => ?_, by simp, by simp, by simp⟩
  · rw [findBatch_programBatch, if_pos rfl, findBatch_setProgram, hf]
    rfl
  · rw [findBatch_programBatch, if_neg hy, findBatch_setProgram]

/-- A batch that starts or resumes with nothing on air. -/
theorem aired_facts (hp : p = .start b.id ∨ p = .resume b.id) (hf : findBatch b.id u = some b)
    (ha : (u.car c).sched.onAir = none) {t : State} (ht : t = takeProgram c sl p (setProgram c sl p u)) :
    findBatch b.id t = some { b with state := .onAir, nextBlock := b.nextBlock + slotBlocks b } ∧
      (∀ y, y ≠ b.id → findBatch y t = findBatch y u) ∧
      (t.car c).sched.onAir = some b.id ∧ (t.car c).sched.stop = none ∧ (t.car c).sched.incoming = none ∧
      (t.car c).sched.stack = (u.car c).sched.stack.filter (fun y => y ≠ b.id) ∧
      (t.car c).counters.dropped = (u.car c).counters.dropped := by
  obtain ⟨w, hw, hbatches, -, -, hair, -, -, hstack, hdropped⟩ := takeProgram_brings (c := c) (sl := sl) hp hf
  obtain ⟨hsched, hfind⟩ := bringOnAir_airs (c := c) (v := w) (id := b.id) (hair.trans ha)
  have hsame (y : BatchId) : findBatch y w = findBatch y u := findBatch_congr hbatches y
  subst ht
  rw [hw]
  refine ⟨?_, fun y hy => ?_, by simp [hsched], by simp [hsched], by simp [hsched], by simp [hsched, hstack], by simp [hdropped]⟩
  · rw [findBatch_programBatch, if_pos rfl, hfind, if_pos rfl, hsame, hf]
    rfl
  · rw [findBatch_programBatch, if_neg hy, hfind, if_neg hy, hsame]

/-- A batch that starts or resumes over an on-air batch is the incoming one. -/
theorem incoming_facts (hp : p = .start b.id ∨ p = .resume b.id) (hf : findBatch b.id u = some b)
    (ha : (u.car c).sched.onAir ≠ none) {t : State} (ht : t = takeProgram c sl p (setProgram c sl p u)) :
    findBatch b.id t = some { b with nextBlock := b.nextBlock + slotBlocks b } ∧
      (∀ y, y ≠ b.id → findBatch y t = findBatch y u) ∧
      (t.car c).sched.onAir = (u.car c).sched.onAir ∧ (t.car c).sched.stop = (u.car c).sched.stop ∧
      (t.car c).sched.incoming = some b.id ∧ (t.car c).sched.stack = (u.car c).sched.stack := by
  obtain ⟨w, hw, hbatches, -, -, hair, hstop, -, hstack, -⟩ := takeProgram_brings (c := c) (sl := sl) hp hf
  obtain ⟨hsched, hfind⟩ := bringOnAir_waits (c := c) (v := w) (id := b.id) (hair.trans_ne ha)
  have hsame (y : BatchId) : findBatch y w = findBatch y u := findBatch_congr hbatches y
  subst ht
  rw [hw]
  refine ⟨?_, fun y hy => ?_, by simp [hsched, hair], by simp [hsched, hstop], by simp [hsched], by simp [hsched, hstack]⟩
  · rw [findBatch_programBatch, if_pos rfl, hfind, hsame, hf]
    rfl
  · rw [findBatch_programBatch, if_neg hy, hfind, hsame]

end

end Sys2Proof.Machine
end

section
/-! The decisions without a claimant: continue, stop, resume, QUIET (O42). -/

namespace Sys2Proof.Machine

open Sys2Proof.Safety

/-! ### Decisions with the gates open (R86, R87) -/

section
variable {c : Carrier} {sl : SlotRef} {s : State}

theorem exec_decided (h : Decides c sl s) : exec (.slotDecision c) s = .next (decideSlot c sl s) := exec_slotDecision h.1

theorem decideSlot_eq (hm : currentCycle c s = some sl.cycle) (hl : (s.car c).maps.label = some sl.cycle) {p : Program} {u : State}
    (hp : decisionSteps c sl (slotClaimant c sl s) (opened c sl s) = (p, u)) :
    decideSlot c sl s = takeProgram c sl p (setProgram c sl p u) := by
  unfold opened at hp
  simp only [decideSlot, bringMaps_current hm hl, hp]

theorem decideSlot_others (h : Decides c sl s) (hs : Scheduled s) {d : Carrier} (hd : d ≠ c) :
    (decideSlot c sl s).car d = s.car d := by
  obtain ⟨-, hm, hl, -⟩ := h
  rw [decideSlot_eq hm hl rfl]
  exact exec_decides_others hs hd rfl

theorem decideSlot_traffic (h : Decides c sl s) (hk : (s.par c).markerSlot ≠ some sl.index ∨ (s.car c).marker = [])
    {p : Program} {u : State} (hp : trafficSteps c sl (slotClaimant c sl s) (opened c sl s) = (p, u)) :
    decideSlot c sl s = takeProgram c sl p (setProgram c sl p u) := by
  obtain ⟨-, hm, hl, -, hprobe, hpower⟩ := h
  refine decideSlot_eq hm hl ((decisionSteps_traffic ?_ ?_ ?_).trans hp)
  · simpa [probeOn] using hprobe
  · simpa [opened_car hl] using hpower
  · obtain hk | hk := hk <;> simp [markerDue, opened_car hl, hk]

end

/-! ### Where the batches of a carrier stand (R94, R96) -/

section
variable {c : Carrier} {s : State}

theorem onAir_placed (h : Scheduled s) {a : Batch} (ha : (s.car c).sched.onAir = some a.id) (hf : findBatch a.id s = some a) :
    a.carrier = c ∧ a.state = .onAir ∧ a.id ∉ (s.car c).sched.stack := by
  have hc := homeOf_onAir h ha a hf
  obtain ⟨-, -, -, hrec, -⟩ := h.2 c
  obtain ⟨hair, hstack⟩ := hrec a (findBatch_some hf).2 hc
  have hstate := hair.2 ha
  exact ⟨hc, hstate, fun hin => by cases hstate.symm.trans (hstack.2 hin)⟩

theorem stack_placed (h : Scheduled s) {x : Batch} (hx : x.id ∈ (s.car c).sched.stack) (hf : findBatch x.id s = some x) :
    x.carrier = c ∧ x.state = .suspended ∧ (s.car c).sched.onAir ≠ some x.id := by
  have hc := homeOf_stack h hx x hf
  obtain ⟨-, -, -, hrec, -⟩ := h.2 c
  obtain ⟨hair, hstack⟩ := hrec x (findBatch_some hf).2 hc
  have hstate := hstack.2 hx
  exact ⟨hc, hstate, fun hin => by cases hstate.symm.trans (hair.2 hin)⟩

theorem stack_nodup (h : Scheduled s) (c : Carrier) : (s.car c).sched.stack.Nodup := (h.2 c).2.2.1

theorem filter_absent {x : BatchId} {l : List BatchId} (h : x ∉ l) : l.filter (fun y => y ≠ x) = l :=
  List.filter_eq_self.2 fun y hy => by simpa using fun e : y = x => h (e ▸ hy)

theorem filter_top {x : BatchId} {l : List BatchId} (h : (x :: l).Nodup) : (x :: l).filter (fun y => y ≠ x) = l := by
  rw [List.filter_cons_of_neg (by simp), filter_absent (List.nodup_cons.1 h).1]

end

/-! ### A stop (R92) -/

section
variable {c : Carrier} {sl : SlotRef} {u : State} {l : List OpenSlot} {p : Program} {h : Option SlotOutcome}

theorem deciding_stopBatch (hd : Deciding c sl l p h u) (id : BatchId) (why : StopReason) :
    Deciding c sl l p (mergeCode h { code := why.code, id := some id }) (stopBatch c sl id why u) := by
  by_cases hh : Held c id u
  · rw [stopBatch_held hh]
    exact deciding_congr (deciding_assignCode hd why.code (some id)) (by simp [modSched_sched])
  · rw [stopBatch_unheld hh]
    exact deciding_codedEnd hd why.code (some id) id why.reason

/-- A stop that waits leaves its batch on air, with the reason of the stop. -/
theorem stopBatch_waits {id : BatchId} (hh : Held c id u) (why : StopReason) :
    (stopBatch c sl id why u).batches = u.batches ∧
      ((stopBatch c sl id why u).car c).timer = (u.car c).timer ∧
      ((stopBatch c sl id why u).car c).counters = (u.car c).counters ∧
      ((stopBatch c sl id why u).car c).sched.onAir = (u.car c).sched.onAir ∧
      ((stopBatch c sl id why u).car c).sched.stop = some why ∧
      ((stopBatch c sl id why u).car c).sched.incoming = (u.car c).sched.incoming ∧
      ((stopBatch c sl id why u).car c).sched.stack = (u.car c).sched.stack := by
  rw [stopBatch_held hh]
  simp [modSched]

/-- A stop that ends its batch takes it off the air. -/
theorem stopBatch_ends {a : Batch} (hh : ¬ Held c a.id u) (hf : findBatch a.id u = some a) (hc : a.carrier = c)
    (ha : (u.car c).sched.onAir = some a.id) (hs : a.id ∉ (u.car c).sched.stack) (why : StopReason) :
    (∀ y, findBatch y (stopBatch c sl a.id why u) = if y = a.id then none else findBatch y u) ∧
      ((stopBatch c sl a.id why u).car c).counters =
        { (u.car c).counters with dropped := satInc (u.car c).counters.dropped } ∧
      ((stopBatch c sl a.id why u).car c).sched.onAir = none ∧
      ((stopBatch c sl a.id why u).car c).sched.stack = (u.car c).sched.stack := by
  have hreason : why.reason ≠ .sent := by cases why <;> simp [StopReason.reason]
  rw [stopBatch_unheld hh, codedEnd_car hf hc]
  refine ⟨findBatch_codedEnd _ _ _ _, by simp [endCounters, hreason], by simp [dropFromCarrier, ha], ?_⟩
  simpa [dropFromCarrier] using filter_absent hs

end

/-- QUIET gives way to every code held (R102). -/
theorem mergeCode_quiet (o : SlotOutcome) (id : Option BatchId) : mergeCode (some o) { code := .quiet, id := id } = some o := by
  have hlow : ¬ codeNumber o.code < codeNumber .quiet := by cases o.code <;> decide
  exact if_neg hlow

/-! ### The cases of a decision without a claimant -/

section
variable {c : Carrier} {sl : SlotRef} {s : State}

theorem decides_opened (h : Decides c sl s) :
    Deciding c sl (s.car c).sched.openSlots .quiet none (opened c sl s) := by
  obtain ⟨-, -, hl, hfresh, -⟩ := h
  exact deciding_opened hfresh hl

theorem opened_held (id : BatchId) : Held c id (opened c sl s) ↔ Held c id s := by simp [Held]

theorem opened_rowOn (b : Batch) : RowOn c b (opened c sl s) ↔ RowOn c b s := by simp [RowOn]

theorem opened_onAirBatch {a : Batch} (ha : (s.car c).sched.onAir = some a.id) (hf : findBatch a.id s = some a) :
    onAirBatch c (opened c sl s) = some a := onAirBatch_of (by simpa using ha) (by simpa using hf)

theorem opened_stops {a : Batch} {why : StopReason} {code : OutcomeCode} (h : Stops c a s why code) :
    Stops c a (opened c sl s) why code := by
  unfold Stops at *
  rwa [opened_rowOn]

/-- An on-air batch that goes on is continued. -/
theorem decision_continues (h : Decides c sl s) (hs : Scheduled s)
    (hk : (s.par c).markerSlot ≠ some sl.index ∨ (s.car c).marker = []) (hn : slotClaimant c sl s = none) {a : Batch}
    (ha : (s.car c).sched.onAir = some a.id) (hf : findBatch a.id s = some a) (hr : Remains a) (hp : a.cancelPending = false)
    (hrow : RowOn c a s) :
    decideSlot c sl s = takeProgram c sl (.cont a.id) (setProgram c sl (.cont a.id) (opened c sl s)) := by
  refine decideSlot_traffic h hk ?_
  rw [hn]
  exact trafficSteps_fixed rfl (continueStep_continues none (opened_onAirBatch ha hf) (onAir_placed hs ha hf).1 hr hp
    ((opened_rowOn a).2 hrow))

/-- A stop with nothing to resume leaves the slot QUIET. -/
theorem decision_stops (h : Decides c sl s) (hs : Scheduled s)
    (hk : (s.par c).markerSlot ≠ some sl.index ∨ (s.car c).marker = []) (hn : slotClaimant c sl s = none) {a : Batch}
    {why : StopReason} {code : OutcomeCode} (ha : (s.car c).sched.onAir = some a.id) (hf : findBatch a.id s = some a)
    (hstop : Stops c a s why code) (hstack : (s.car c).sched.stack = []) :
    ((decideSlot c sl s).car c).sched.openSlots = (s.car c).sched.openSlots ++
        [{ slot := sl, program := .quiet, held := some { code := code, id := some a.id } }] ∧
      (Held c a.id s → (decideSlot c sl s).batches = s.batches ∧ ((decideSlot c sl s).car c).sched.onAir = some a.id ∧
        ((decideSlot c sl s).car c).sched.stop = some why ∧ ((decideSlot c sl s).car c).timer = (s.car c).timer ∧
        ((decideSlot c sl s).car c).counters = (s.car c).counters) ∧
      (¬ Held c a.id s → findBatch a.id (decideSlot c sl s) = none ∧ ((decideSlot c sl s).car c).sched.onAir = none ∧
        ((decideSlot c sl s).car c).counters = { (s.car c).counters with dropped := satInc (s.car c).counters.dropped }) := by
  obtain ⟨hc, -, -⟩ := onAir_placed hs ha hf
  have hnil : a.id ∉ ((opened c sl s).car c).sched.stack := by simp [hstack]
  obtain ⟨h5, rfl⟩ := continueStep_stops (sl := sl) none (opened_onAirBatch ha hf) hc (opened_stops hstop)
  have hempty : ((stopBatch c sl a.id why (opened c sl s)).car c).sched.stack = [] := by
    by_cases hh : Held c a.id (opened c sl s)
    · obtain ⟨-, -, -, -, -, -, hst⟩ := stopBatch_waits (sl := sl) hh why
      simpa [hstack] using hst
    · obtain ⟨-, -, -, hst⟩ := stopBatch_ends (sl := sl) hh (by simpa using hf) hc (by simpa using ha) hnil why
      simpa [hstack] using hst
  rw [decideSlot_traffic h hk ((congrArg (trafficSteps c sl · _) hn).trans (trafficSteps_quiet rfl h5 hempty))]
  refine ⟨?_, fun hh => ?_, fun hh => ?_⟩
  · rw [deciding_taken (deciding_assignCode (deciding_stopBatch (decides_opened h) a.id why) .quiet none) .quiet,
      show mergeCode none _ = some _ from rfl, mergeCode_quiet]
  · obtain ⟨hb, htimer, hcount, hair, hst, -⟩ := stopBatch_waits (u := opened c sl s) (sl := sl) ((opened_held a.id).2 hh) why
    simp [takeProgram, hb, htimer, hcount, hair, hst, ha]
  · obtain ⟨hfind, hcount, hair, -⟩ := stopBatch_ends (sl := sl) (mt (opened_held a.id).1 hh) (by simpa using hf) hc
      (by simpa using ha) hnil why
    have hended : findBatch a.id (stopBatch c sl a.id why (opened c sl s)) = none := (hfind a.id).trans (if_pos rfl)
    exact ⟨(findBatch_congr (by simp [takeProgram]) _).trans hended, by simp [takeProgram, hair], by simp [takeProgram, hcount]⟩

/-- With nothing on air and nothing suspended the slot is QUIET. -/
theorem decision_quiet (h : Decides c sl s) (hk : (s.par c).markerSlot ≠ some sl.index ∨ (s.car c).marker = [])
    (hn : slotClaimant c sl s = none) (ha : (s.car c).sched.onAir = none) (hstack : (s.car c).sched.stack = []) :
    decideSlot c sl s = takeProgram c sl .quiet (setProgram c sl .quiet (assignCode c sl .quiet none (opened c sl s))) :=
  decideSlot_traffic h hk ((congrArg (trafficSteps c sl · _) hn).trans
    (trafficSteps_quiet rfl (continueStep_empty none (by simpa using ha)) (by simpa using hstack)))

/-- The top of the stack, its row enabled, is resumed where the step before leaves `w` with no program. -/
theorem decision_resumes (h : Decides c sl s) (hk : (s.par c).markerSlot ≠ some sl.index ∨ (s.car c).marker = [])
    (hn : slotClaimant c sl s = none) {w : State} (h5 : continueStep c sl none (opened c sl s) = (none, w)) {x : Batch}
    {rest : List BatchId} (hst : (w.car c).sched.stack = x.id :: rest) (hf : findBatch x.id w = some x) (hc : x.carrier = c)
    (hrow : RowOn c x w) :
    decideSlot c sl s = takeProgram c sl (.resume x.id) (setProgram c sl (.resume x.id) w) := by
  refine decideSlot_traffic h hk ((congrArg (trafficSteps c sl · _) hn).trans (trafficSteps_resumed rfl h5 ?_))
  rw [hst]
  exact resumeStep_on hf hc hrow

theorem rowOn_congr {c : Carrier} {b : Batch} {s t : State} (h : t.align = s.align) : RowOn c b t ↔ RowOn c b s := by
  unfold RowOn
  rw [h]

/-- Over a finished on-air batch the top of the stack is resumed as the incoming batch. -/
theorem decision_resumes_finished (h : Decides c sl s) (hs : Scheduled s)
    (hk : (s.par c).markerSlot ≠ some sl.index ∨ (s.car c).marker = []) (hn : slotClaimant c sl s = none) {a x : Batch}
    {rest : List BatchId} (ha : (s.car c).sched.onAir = some a.id) (hf : findBatch a.id s = some a) (hr : ¬ Remains a)
    (hst : (s.car c).sched.stack = x.id :: rest) (hx : findBatch x.id s = some x) (hrow : RowOn c x s) :
    findBatch a.id (decideSlot c sl s) = some a ∧
      (findBatch x.id (decideSlot c sl s)).map Batch.state = some .suspended ∧
      ((decideSlot c sl s).car c).sched.onAir = some a.id ∧ ((decideSlot c sl s).car c).sched.incoming = some x.id ∧
      ((decideSlot c sl s).car c).sched.stack = (s.car c).sched.stack ∧
      ((decideSlot c sl s).car c).sched.openSlots =
        (s.car c).sched.openSlots ++ [{ slot := sl, program := .resume x.id, held := none }] := by
  obtain ⟨hxc, hxstate, hxair⟩ := stack_placed hs (by rw [hst]; exact List.mem_cons_self) hx
  have hxf : findBatch x.id (opened c sl s) = some x := by simpa using hx
  have hdecided := decision_resumes h hk hn (continueStep_finished none (opened_onAirBatch ha hf) hr) (by simpa using hst) hxf hxc
    ((opened_rowOn x).2 hrow)
  obtain ⟨hfind, hfinds, hair, -, hinc, hstack⟩ := incoming_facts (.inr rfl) hxf (by simp [ha]) hdecided
  have hne : a.id ≠ x.id := fun e => hxair (e ▸ ha)
  refine ⟨by simpa [hf] using hfinds a.id hne, by simp [hfind, hxstate], by simpa [ha] using hair, hinc, by simpa using hstack, ?_⟩
  rw [hdecided]
  exact deciding_taken (decides_opened h) _

/-- Over a stop the top of the stack is resumed: as the incoming batch while the stop waits, else on air. -/
theorem decision_resumes_stopped (h : Decides c sl s) (hs : Scheduled s)
    (hk : (s.par c).markerSlot ≠ some sl.index ∨ (s.car c).marker = []) (hn : slotClaimant c sl s = none) {a x : Batch}
    {rest : List BatchId} {why : StopReason} {code : OutcomeCode} (ha : (s.car c).sched.onAir = some a.id)
    (hf : findBatch a.id s = some a) (hstop : Stops c a s why code)
    (hst : (s.car c).sched.stack = x.id :: rest) (hx : findBatch x.id s = some x) (hrow : RowOn c x s) :
    ((decideSlot c sl s).car c).sched.openSlots = (s.car c).sched.openSlots ++
        [{ slot := sl, program := .resume x.id, held := some { code := code, id := some a.id } }] ∧
      (Held c a.id s →
        findBatch a.id (decideSlot c sl s) = some a ∧ (findBatch x.id (decideSlot c sl s)).map Batch.state = some .suspended ∧
        ((decideSlot c sl s).car c).sched.onAir = some a.id ∧ ((decideSlot c sl s).car c).sched.stop = some why ∧
        ((decideSlot c sl s).car c).sched.incoming = some x.id ∧
        ((decideSlot c sl s).car c).sched.stack = (s.car c).sched.stack) ∧
      (¬ Held c a.id s →
        findBatch a.id (decideSlot c sl s) = none ∧ (findBatch x.id (decideSlot c sl s)).map Batch.state = some .onAir ∧
        ((decideSlot c sl s).car c).sched.onAir = some x.id ∧ ((decideSlot c sl s).car c).sched.stop = none ∧
        ((decideSlot c sl s).car c).sched.incoming = none ∧ ((decideSlot c sl s).car c).sched.stack = rest ∧
        ((decideSlot c sl s).car c).counters.dropped = satInc (s.car c).counters.dropped) := by
  obtain ⟨hac, -, hastack⟩ := onAir_placed hs ha hf
  obtain ⟨hxc, hxstate, hxair⟩ := stack_placed hs (by rw [hst]; exact List.mem_cons_self) hx
  have hne : a.id ≠ x.id := fun e => hxair (e ▸ ha)
  obtain ⟨h5, rfl⟩ := continueStep_stops (sl := sl) none (opened_onAirBatch ha hf) hac (opened_stops hstop)
  have hrow' : RowOn c x (stopBatch c sl a.id why (opened c sl s)) := (rowOn_congr (by simp)).2 hrow
  by_cases hh : Held c a.id s
  · obtain ⟨hb, -, -, hair, hwhy, -, hstack⟩ := stopBatch_waits (u := opened c sl s) (sl := sl) ((opened_held a.id).2 hh) why
    have hxf : findBatch x.id (stopBatch c sl a.id why (opened c sl s)) = some x := by
      rw [findBatch_congr hb]
      simpa using hx
    have hdecided := decision_resumes h hk hn h5 (by simpa [hst] using hstack) hxf hxc hrow'
    obtain ⟨hfind, hfinds, hair', hstop', hinc, hstack'⟩ := incoming_facts (.inr rfl) hxf (by simp [hair, ha]) hdecided
    refine ⟨?_, fun _ => ⟨?_, by simp [hfind, hxstate], by simp [hair', hair, ha], by rw [hstop', hwhy], hinc,
      by simp [hstack', hstack]⟩, fun hnh => absurd hh hnh⟩
    · rw [hdecided]
      exact deciding_taken (deciding_stopBatch (decides_opened h) a.id why) _
    · rw [hfinds a.id hne, findBatch_congr hb]
      simpa using hf
  · obtain ⟨hfind, hcount, hair, hstack⟩ := stopBatch_ends (u := opened c sl s) (sl := sl) (mt (opened_held a.id).1 hh)
      (by simpa using hf) hac (by simpa using ha) (by simpa using hastack) why
    have hxf : findBatch x.id (stopBatch c sl a.id why (opened c sl s)) = some x := by
      rw [hfind, if_neg (Ne.symm hne)]
      simpa using hx
    have hdecided := decision_resumes h hk hn h5 (by simpa [hst] using hstack) hxf hxc hrow'
    obtain ⟨hfindx, hfinds, hair', hstop', hinc, hstack', hdropped⟩ := aired_facts (.inr rfl) hxf hair hdecided
    refine ⟨?_, fun hheld => absurd hheld hh, fun _ => ⟨?_, by simp [hfindx], hair', hstop', hinc, ?_, ?_⟩⟩
    · rw [hdecided]
      exact deciding_taken (deciding_stopBatch (decides_opened h) a.id why) _
    · rw [hfinds a.id hne, hfind, if_pos rfl]
    · rw [hstack', hstack, (opened_fields c sl s c).2.2.2.2.2.2.2.2.2.2.1, hst]
      exact filter_top (hst ▸ stack_nodup hs c)
    · rw [hdropped, hcount]
      simp

/-- A disabled row at the top of the stack ends, and the entry below is resumed. -/
theorem decision_resumes_below (h : Decides c sl s) (hs : Scheduled s)
    (hk : (s.par c).markerSlot ≠ some sl.index ∨ (s.car c).marker = []) (hn : slotClaimant c sl s = none) {x y : Batch}
    {rest : List BatchId} (ha : (s.car c).sched.onAir = none) (hst : (s.car c).sched.stack = x.id :: y.id :: rest)
    (hx : findBatch x.id s = some x) (hy : findBatch y.id s = some y) (hoff : ¬ RowOn c x s) (hon : RowOn c y s) :
    findBatch x.id (decideSlot c sl s) = none ∧ (findBatch y.id (decideSlot c sl s)).map Batch.state = some .onAir ∧
      ((decideSlot c sl s).car c).sched.onAir = some y.id ∧ ((decideSlot c sl s).car c).sched.stack = rest ∧
      ((decideSlot c sl s).car c).counters.dropped = satInc (s.car c).counters.dropped ∧
      ((decideSlot c sl s).car c).sched.openSlots = (s.car c).sched.openSlots ++
        [{ slot := sl, program := .resume y.id, held := some { code := .notInGroup, id := some x.id } }] := by
  obtain ⟨hxc, -, -⟩ := stack_placed hs (by rw [hst]; simp) hx
  obtain ⟨hyc, -, -⟩ := stack_placed hs (by rw [hst]; simp) hy
  have hnodup := hst ▸ stack_nodup hs c
  have hne : y.id ≠ x.id := fun e => (List.nodup_cons.1 hnodup).1 (e ▸ List.mem_cons_self)
  have hxf : findBatch x.id (opened c sl s) = some x := by simpa using hx
  set w := endBatch x.id .notInGroup (assignCode c sl .notInGroup (some x.id) (opened c sl s)) with hw
  have hcar := codedEnd_car (sl := sl) hxf hxc .notInGroup (some x.id) .notInGroup
  rw [← hw] at hcar
  have hfind (z : BatchId) : findBatch z w = if z = x.id then none else findBatch z s := by
    rw [hw, findBatch_codedEnd]
    simp
  have hyf : findBatch y.id w = some y := by rw [hfind, if_neg hne, hy]
  have hdecided : decideSlot c sl s = takeProgram c sl (.resume y.id) (setProgram c sl (.resume y.id) w) := by
    refine decideSlot_traffic h hk ((congrArg (trafficSteps c sl · _) hn).trans
      (trafficSteps_resumed rfl (continueStep_empty none (by simpa using ha)) ?_))
    rw [(opened_fields c sl s c).2.2.2.2.2.2.2.2.2.2.1, hst, resumeStep_off hxf hxc (mt (opened_rowOn x).1 hoff), ← hw]
    exact resumeStep_on hyf hyc ((rowOn_congr (by simp [hw])).2 hon)
  obtain ⟨hfindy, hfinds, hair, -, -, hstack, hdropped⟩ := aired_facts (.inr rfl) hyf (by simp [hcar, dropFromCarrier, ha]) hdecided
  have hwstack : (w.car c).sched.stack = y.id :: rest := by
    rw [hcar]
    simpa [dropFromCarrier, hst] using filter_top hnodup
  refine ⟨by rw [hfinds x.id (Ne.symm hne), hfind, if_pos rfl], by simp [hfindy], hair, ?_, ?_, ?_⟩
  · rw [hstack, hwstack]
    exact filter_top (List.nodup_cons.1 hnodup).2
  · rw [hdropped, hcar]
    simp [endCounters]
  · rw [hdecided]
    exact deciding_taken (deciding_codedEnd (decides_opened h) .notInGroup (some x.id) x.id .notInGroup) _

end

/-- Settles O42: with no claimant the step is a continuation, a stop, or the first enabled entry of the stack. -/
theorem decisionContinues : Obligations.DecisionContinues := by
  unfold Obligations.DecisionContinues
  refine ⟨fun c s sl hd hm hl hfresh hs hprobe hpower hk hclaim => ?_, fun c s sl h hs hk hclaim hinc => ?_⟩
  · have h : Decides c sl s := ⟨hd, hm, hl, hfresh, hprobe, hpower⟩
    have hn := slotClaimant_none hclaim
    refine ⟨decideSlot c sl s, exec_decided h, fun a l ha hf hlast hle hp hrow => ?_, fun a l r ha hf hlast hle hp hact hnames hst => ?_,
      fun x rest ha hinc hst hx hrow => ?_, fun ha hst => ?_, fun d hdc => decideSlot_others h hs hdc⟩
    · have hdecided := decision_continues h hs hk hn ha hf ⟨l, hlast, hle⟩ hp hrow
      obtain ⟨hfind, -, htimer, hair, -⟩ := continued_facts (u := opened c sl s) (by simpa using hf) hdecided
      have hrun : batchRun c sl a (opened c sl s) = formRun c sl a.group a.rate
          (.batch a.id a.nextBlock (min a.rate.blocks (l.index + 1 - a.nextBlock)) a.modulation l) s := by
        rw [batchRun_congr (s := s) (by simp), batchRun, slotBlocks_last hlast, hlast, Option.getD_some]
      rw [hrun, (opened_fields c sl s c).1] at htimer
      refine ⟨by rw [hfind, slotBlocks_last hlast], by simpa [ha] using hair, ?_, fun hnone => ?_, fun x hx => ?_⟩
      · rw [hdecided]
        exact deciding_taken (decides_opened h) _
      · exact htimer.trans (placeRun_active hnone)
      · rw [htimer, placeRun_armed hx]
    · have hheld : Held c a.id s := ⟨r, by simp [LaunchTimer.runs, hact], hnames⟩
      obtain ⟨hslots, hwaits, -⟩ := decision_stops h hs hk hn ha hf ⟨⟨l, hlast, hle⟩, .inl ⟨hp, rfl, rfl⟩⟩ hst
      obtain ⟨hb, hair, hstop, htimer, -⟩ := hwaits hheld
      exact ⟨hb, hair, hstop, htimer, hslots⟩
    · obtain ⟨hxc, -, -⟩ := stack_placed hs (by rw [hst]; exact List.mem_cons_self) hx
      have hxf : findBatch x.id (opened c sl s) = some x := by simpa using hx
      have hdecided := decision_resumes h hk hn (continueStep_empty none (by simpa using ha)) (by simpa using hst) hxf hxc
        ((opened_rowOn x).2 hrow)
      obtain ⟨hfind, -, hair, -, -, hstack, -⟩ := aired_facts (.inr rfl) hxf (by simpa using ha) hdecided
      refine ⟨hair, ?_, by simp [hfind], ?_⟩
      · rw [hstack, (opened_fields c sl s c).2.2.2.2.2.2.2.2.2.2.1, hst]
        exact filter_top (hst ▸ stack_nodup hs c)
      · rw [hdecided]
        exact deciding_taken (decides_opened h) _
    · rw [decision_quiet h hk hn ha hst]
      refine ⟨by simp [takeProgram], by simp [takeProgram], by simp [takeProgram], by simp [takeProgram], ?_⟩
      exact deciding_taken (deciding_assignCode (decides_opened h) .quiet none) _
  · have hn := slotClaimant_none hclaim
    exact ⟨decideSlot c sl s, exec_decided h, fun a why code ha hf hstop hst => decision_stops h hs hk hn ha hf hstop hst,
      fun x y rest ha hst hx hy hoff hon => decision_resumes_below h hs hk hn ha hst hx hy hoff hon,
      fun a x rest ha hf hr hst hx hrow => decision_resumes_finished h hs hk hn ha hf hr hst hx hrow,
      fun a x rest why code ha hf hstop hst hx hrow => decision_resumes_stopped h hs hk hn ha hf hstop hst hx hrow,
      fun d hdc => decideSlot_others h hs hdc⟩

end Sys2Proof.Machine
end

section
/-! A claimant against an on-air batch (O40). -/

namespace Sys2Proof.Machine

open Sys2Proof.Safety

/-! ### The push of an on-air batch (R94) -/

section
variable {c : Carrier} {sl : SlotRef} {u : State} {l : List OpenSlot} {p : Program} {h : Option SlotOutcome} {a : Batch}

/-- With room on the stack the on-air batch goes on top of it, SUSPENDED. -/
theorem pushOnAir_roomy (hf : findBatch a.id u = some a) (hr : (u.car c).sched.stack.length < 4) :
    findBatch a.id (pushOnAir c sl a.id u) = some { a with state := .suspended } ∧
      (∀ y, y ≠ a.id → findBatch y (pushOnAir c sl a.id u) = findBatch y u) ∧
      ((pushOnAir c sl a.id u).car c).sched =
        { (u.car c).sched with onAir := none, stop := none, stack := a.id :: (u.car c).sched.stack } := by
  have hsame : displaceOldest c sl u = u := displaceOldest_roomy hr
  refine ⟨?_, fun y hy => ?_, by rw [pushOnAir_sched, hsame]⟩
  · rw [findBatch_pushOnAir, if_pos rfl, hsame, hf]
    rfl
  · rw [findBatch_pushOnAir, if_neg hy, hsame]

/-- A full stack loses its oldest entry to it, DISPLACED. -/
theorem pushOnAir_full (hs : Scheduled u) (ha : (u.car c).sched.onAir = some a.id) (hf : findBatch a.id u = some a)
    {rest : List BatchId} {x : BatchId} (hst : (u.car c).sched.stack = rest ++ [x]) (hn : rest.length = 3)
    (hd : Deciding c sl l p h u) :
    findBatch a.id (pushOnAir c sl a.id u) = some { a with state := .suspended } ∧
      findBatch x (pushOnAir c sl a.id u) = none ∧
      (∀ y, y ≠ a.id → y ≠ x → findBatch y (pushOnAir c sl a.id u) = findBatch y u) ∧
      ((pushOnAir c sl a.id u).car c).sched.onAir = none ∧
      ((pushOnAir c sl a.id u).car c).sched.stack = a.id :: rest ∧
      ((pushOnAir c sl a.id u).car c).counters.dropped = satInc (u.car c).counters.dropped ∧
      Deciding c sl l p (mergeCode h { code := .displaced, id := some x }) (pushOnAir c sl a.id u) := by
  have hx : x ∈ (u.car c).sched.stack := by simp [hst]
  have hne : a.id ≠ x := fun e => (onAir_placed hs ha hf).2.2 (e ▸ hx)
  obtain ⟨b, hb, hc⟩ : ∃ b, findBatch x u = some b ∧ b.carrier = c := (hs.2 c).2.2.2.2.2.1 x hx
  have hdisp := displaceOldest_full (sl := sl) hst hn
  have hcar := codedEnd_car (sl := sl) hb hc .displaced (some x) .displaced
  have hrest : (rest ++ [x]).filter (fun y => y ≠ x) = rest := by
    have hnodup := List.nodup_append.1 (hst ▸ stack_nodup hs c)
    rw [List.filter_append, filter_absent fun hin => hnodup.2.2 x hin x (by simp) rfl]
    simp
  refine ⟨?_, ?_, fun y hya hyx => ?_, by rw [pushOnAir_sched], ?_, ?_, ?_⟩
  · rw [findBatch_pushOnAir, if_pos rfl, hdisp, findBatch_codedEnd, if_neg hne, hf]
    rfl
  · rw [findBatch_pushOnAir, if_neg (Ne.symm hne), hdisp, findBatch_codedEnd, if_pos rfl]
  · rw [findBatch_pushOnAir, if_neg hya, hdisp, findBatch_codedEnd, if_neg hyx]
  · rw [pushOnAir_sched, hdisp, hcar]
    simpa [dropFromCarrier, hst] using hrest
  · have hcount : ((pushOnAir c sl a.id u).car c).counters = ((displaceOldest c sl u).car c).counters := by
      simp [pushOnAir, modSched]
    rw [hcount, hdisp, hcar]
    simp [endCounters]
  · refine deciding_congr (deciding_codedEnd hd .displaced (some x) x .displaced) ?_
    rw [pushOnAir_sched, hdisp]

end

/-! ### The cases of a COMPLETE claimant over an on-air batch -/

section
variable {c : Carrier} {sl : SlotRef} {s : State} {a b : Batch}

theorem claimant_of_claim (hs : Scheduled s) (hl : (s.car c).maps.label = some sl.cycle)
    (hclaim : (s.car c).maps.current.get sl.index = some b.id) (hb : findBatch b.id s = some b) :
    slotClaimant c sl s = some b ∧ b.carrier = c ∧ (s.car c).sched.onAir ≠ some b.id ∧
      (s.car c).sched.incoming ≠ some b.id ∧ b.id ∉ (s.car c).sched.stack := by
  obtain ⟨x, hx, -, hf, hc, hair, hinc, hstack⟩ := slotClaimant_some hs hl hclaim
  obtain rfl := Option.some.inj (hf.symm.trans hb)
  exact ⟨hx, hc, hair, hinc, hstack⟩

/-- The claimant starts where steps 4 and 5 leave its START, in state `w`. -/
theorem decision_starts (h : Decides c sl s) (hk : (s.par c).markerSlot ≠ some sl.index ∨ (s.car c).marker = [])
    (hb : slotClaimant c sl s = some b) {v w : State}
    (h4 : claimantStep c sl (some b) (opened c sl s) = (some (.start b.id), v))
    (h5 : continueStep c sl (some (.start b.id)) v = (some (.start b.id), w)) :
    decideSlot c sl s = takeProgram c sl (.start b.id) (setProgram c sl (.start b.id) w) :=
  decideSlot_traffic h hk ((congrArg (trafficSteps c sl · _) hb).trans (trafficSteps_fixed h4 h5))

/-- A claimant of higher priority pushes the on-air batch, and starts. -/
theorem decision_preempts (h : Decides c sl s) (hs : Scheduled s)
    (hk : (s.par c).markerSlot ≠ some sl.index ∨ (s.car c).marker = [])
    (hclaim : (s.car c).maps.current.get sl.index = some b.id) (hb : findBatch b.id s = some b) (hcomplete : b.state = .complete)
    (hrow : RowOn c b s) (ha : (s.car c).sched.onAir = some a.id) (hf : findBatch a.id s = some a) (hr : Remains a)
    (hp : a.cancelPending = false) (hprio : a.priority < b.priority) :
    decideSlot c sl s = takeProgram c sl (.start b.id) (setProgram c sl (.start b.id) (pushOnAir c sl a.id (opened c sl s))) := by
  obtain ⟨hbs, hc, -⟩ := claimant_of_claim hs h.2.2.1 hclaim hb
  exact decision_starts h hk hbs (claimantStep_preempts hc hcomplete ((opened_rowOn b).2 hrow)
    (rival_remains (opened_onAirBatch ha hf) hr hp) hprio) (continueStep_empty _ (by rw [pushOnAir_sched]))

/-- One that does not outrank it ends OVERLAP, and the on-air batch is continued. -/
theorem decision_overlaps (h : Decides c sl s) (hs : Scheduled s)
    (hk : (s.par c).markerSlot ≠ some sl.index ∨ (s.car c).marker = [])
    (hclaim : (s.car c).maps.current.get sl.index = some b.id) (hb : findBatch b.id s = some b) (hcomplete : b.state = .complete)
    (hrow : RowOn c b s) (ha : (s.car c).sched.onAir = some a.id) (hf : findBatch a.id s = some a) (hr : Remains a)
    (hp : a.cancelPending = false) (hprio : b.priority ≤ a.priority) (harow : RowOn c a s) :
    ((decideSlot c sl s).car c).sched.onAir = some a.id ∧ ((decideSlot c sl s).car c).sched.stack = (s.car c).sched.stack ∧
      findBatch b.id (decideSlot c sl s) = none ∧
      findBatch a.id (decideSlot c sl s) = some { a with nextBlock := a.nextBlock + slotBlocks a } ∧
      ((decideSlot c sl s).car c).sched.openSlots = (s.car c).sched.openSlots ++
        [{ slot := sl, program := .cont a.id, held := some { code := .overlap, id := some b.id } }] := by
  have hl := h.2.2.1
  obtain ⟨hbs, hc, hair, hinc, hstack⟩ := claimant_of_claim hs hl hclaim hb
  obtain ⟨hac, -, -⟩ := onAir_placed hs ha hf
  have hne : a.id ≠ b.id := fun e => hair (e ▸ ha)
  set v := dropClaimant c sl b .overlap .overlap (opened c sl s) with hv
  have hcar : (v.car c).sched = ((assignCode c sl .overlap (some b.id) (opened c sl s)).car c).sched := by
    rw [hv, dropClaimant_same hl hb hc hair hinc hstack]
  have hfind (y : BatchId) : findBatch y v = if y = b.id then none else findBatch y s := by
    rw [hv, dropClaimant, findBatch_codedEnd]
    simp
  have hvair : (v.car c).sched.onAir = some a.id := by simp [hcar, ha]
  have hva : findBatch a.id v = some a := by rw [hfind, if_neg hne, hf]
  have hdecided : decideSlot c sl s = takeProgram c sl (.cont a.id) (setProgram c sl (.cont a.id) v) := by
    refine decideSlot_traffic h hk ((congrArg (trafficSteps c sl · _) hbs).trans (trafficSteps_fixed
      (claimantStep_overlaps hc hcomplete ((opened_rowOn b).2 hrow) (rival_remains (opened_onAirBatch ha hf) hr hp) hprio) ?_))
    exact continueStep_continues none (onAirBatch_of hvair hva) hac hr hp ((rowOn_congr (by simp)).2 harow)
  obtain ⟨hfa, hfinds, -, hair', hstack'⟩ := continued_facts hva hdecided
  refine ⟨hair'.trans hvair, by simp [hstack', hcar], ?_, hfa, ?_⟩
  · rw [hfinds b.id (Ne.symm hne), hfind, if_pos rfl]
  · rw [hdecided]
    exact deciding_taken (deciding_codedEnd (decides_opened h) .overlap (some b.id) b.id .overlap) _

/-- Over a batch that is finished, or has CANCEL_PENDING set, the claimant starts whatever the priorities. -/
theorem decision_starts_over (h : Decides c sl s) (hs : Scheduled s)
    (hk : (s.par c).markerSlot ≠ some sl.index ∨ (s.car c).marker = [])
    (hclaim : (s.car c).maps.current.get sl.index = some b.id) (hb : findBatch b.id s = some b) (hcomplete : b.state = .complete)
    (hrow : RowOn c b s) (ha : (s.car c).sched.onAir = some a.id) (hf : findBatch a.id s = some a)
    (hweak : ¬ Remains a ∨ a.cancelPending = true) {w : State}
    (h5 : continueStep c sl (some (.start b.id)) (opened c sl s) = (some (.start b.id), w)) :
    decideSlot c sl s = takeProgram c sl (.start b.id) (setProgram c sl (.start b.id) w) := by
  obtain ⟨hbs, hc, -⟩ := claimant_of_claim hs h.2.2.1 hclaim hb
  exact decision_starts h hk hbs (claimantStep_starts hc hcomplete ((opened_rowOn b).2 hrow)
    (rival_weak (opened_onAirBatch ha hf) hweak)) h5

end

/-- Settles O40, by what the on-air batch is: outranked, not outranked, finished, or CANCEL_PENDING. -/
theorem decisionPreempts : Obligations.DecisionPreempts := by
  unfold Obligations.DecisionPreempts
  refine ⟨fun c s sl a b l hd hm hl hfresh hs hprobe hpower hmark hclaim hb hcomplete hrow ha hf hlast hle hp hinc hroom => ?_,
    fun c s sl a b h hs hk hclaim hb hcomplete hrow ha hf hinc => ?_⟩
  · have h : Decides c sl s := ⟨hd, hm, hl, hfresh, hprobe, hpower⟩
    have hr : Remains a := ⟨l, hlast, hle⟩
    obtain ⟨-, -, hair, -, hbstack⟩ := claimant_of_claim hs hl hclaim hb
    have hne : b.id ≠ a.id := fun e => hair (e ▸ ha)
    refine ⟨decideSlot c sl s, exec_decided h, fun hprio => ?_, fun hprio harow => ?_, fun d hdc => decideSlot_others h hs hdc⟩
    · have hdecided := decision_preempts h hs (.inl hmark) hclaim hb hcomplete hrow ha hf hr hp hprio
      obtain ⟨hpa, hpfinds, hpsched⟩ := pushOnAir_roomy (c := c) (sl := sl) (u := opened c sl s) (a := a) (by simpa using hf)
        (by simpa using hroom)
      have hpb : findBatch b.id (pushOnAir c sl a.id (opened c sl s)) = some b := by
        rw [hpfinds b.id hne]
        simpa using hb
      obtain ⟨hfb, hfinds, hair', -, -, hstack, -⟩ := aired_facts (.inl rfl) hpb (by rw [hpsched]) hdecided
      refine ⟨hair', ?_, by rw [hfinds a.id (Ne.symm hne), hpa], by simp [hfb], ?_⟩
      · rw [hstack, hpsched]
        simpa using filter_absent (x := b.id) (l := a.id :: (s.car c).sched.stack) (by simp [hne, hbstack])
      · rw [hdecided]
        exact deciding_taken (deciding_congr (decides_opened h) (by rw [hpsched])) _
    · have hover := decision_overlaps h hs (.inl hmark) hclaim hb hcomplete hrow ha hf hr hp hprio harow
      rwa [slotBlocks_last hlast] at hover
  · obtain ⟨-, -, hair, -, hbstack⟩ := claimant_of_claim hs h.2.2.1 hclaim hb
    obtain ⟨hac, -, hastack⟩ := onAir_placed hs ha hf
    have hne : b.id ≠ a.id := fun e => hair (e ▸ ha)
    have hbf : findBatch b.id (opened c sl s) = some b := by simpa using hb
    refine ⟨decideSlot c sl s, exec_decided h, fun rest x hr hp hprio hst hn => ?_, fun hr l hlast => ?_, fun hr hp l hlast => ?_,
      fun d hdc => decideSlot_others h hs hdc⟩
    · have hdecided := decision_preempts h hs hk hclaim hb hcomplete hrow ha hf hr hp hprio
      obtain ⟨hpa, hpx, hpfinds, hpair, hpstack, hpcount, hpslots⟩ := pushOnAir_full (opened_scheduled hs sl)
        (by simpa using ha) (a := a) (by simpa using hf) (by simpa using hst) hn (decides_opened h)
      have hbx : b.id ≠ x := fun e => hbstack (by simp [hst, e])
      have hax : a.id ≠ x := fun e => hastack (by simp [hst, e])
      have hbrest : b.id ∉ rest := fun hin => hbstack (by simp [hst, hin])
      have hpb : findBatch b.id (pushOnAir c sl a.id (opened c sl s)) = some b := by rw [hpfinds b.id hne hbx, hbf]
      obtain ⟨hfb, hfinds, hair', -, -, hstack, hdropped⟩ := aired_facts (.inl rfl) hpb hpair hdecided
      refine ⟨by rw [hfinds x (Ne.symm hbx), hpx], by rw [hfinds a.id (Ne.symm hne), hpa], by simp [hfb], hair', ?_, ?_, ?_⟩
      · rw [hstack, hpstack]
        exact filter_absent (by simp [hne, hbrest])
      · rw [hdropped, hpcount]
        simp
      · rw [hdecided]
        exact deciding_taken hpslots _
    · have hdecided := decision_starts_over h hs hk hclaim hb hcomplete hrow ha hf (.inl hr)
        (continueStep_finished _ (opened_onAirBatch ha hf) hr)
      obtain ⟨hfb, hfinds, hair', hstop, hinc', hstack⟩ := incoming_facts (.inl rfl) hbf (by simp [ha]) hdecided
      refine ⟨by rw [hfb, slotBlocks_last hlast], ?_, by simpa [ha] using hair', hinc', by simpa using hstop,
        by simpa using hstack, ?_⟩
      · rw [hfinds a.id (Ne.symm hne)]
        simpa using hf
      · rw [hdecided]
        exact deciding_taken (decides_opened h) _
    · obtain ⟨h5, -⟩ := continueStep_stops (sl := sl) (some (.start b.id)) (opened_onAirBatch ha hf) hac
        (opened_stops (why := .cancelled) ⟨hr, .inl ⟨hp, rfl, rfl⟩⟩)
      have hdecided := decision_starts_over h hs hk hclaim hb hcomplete hrow ha hf (.inr hp) h5
      have hslots : ((decideSlot c sl s).car c).sched.openSlots = (s.car c).sched.openSlots ++
          [{ slot := sl, program := .start b.id, held := some { code := .cancelled, id := some a.id } }] := by
        rw [hdecided]
        exact deciding_taken (deciding_stopBatch (decides_opened h) a.id .cancelled) _
      by_cases hh : Held c a.id s
      · obtain ⟨hsame, -, -, hwair, hwstop, -, hwstack⟩ := stopBatch_waits (u := opened c sl s) (sl := sl)
          ((opened_held a.id).2 hh) .cancelled
        have hwb : findBatch b.id (stopBatch c sl a.id .cancelled (opened c sl s)) = some b := by
          rw [findBatch_congr hsame, hbf]
        obtain ⟨hfb, hfinds, hair', hstop, hinc', hstack⟩ := incoming_facts (.inl rfl) hwb (by simp [hwair, ha]) hdecided
        refine ⟨by simp [hstack, hwstack], hslots, fun _ => ⟨?_, by simp [hair', hwair, ha], by rw [hstop, hwstop], hinc',
          by rw [hfb, slotBlocks_last hlast]⟩, fun hnh => absurd hh hnh⟩
        rw [hfinds a.id (Ne.symm hne), findBatch_congr hsame]
        simpa using hf
      · obtain ⟨hwfind, hwcount, hwair, hwstack⟩ := stopBatch_ends (u := opened c sl s) (sl := sl)
          (mt (opened_held a.id).1 hh) (by simpa using hf) hac (by simpa using ha) (by simpa using hastack) .cancelled
        have hwb : findBatch b.id (stopBatch c sl a.id .cancelled (opened c sl s)) = some b := by rw [hwfind, if_neg hne, hbf]
        obtain ⟨hfb, hfinds, hair', hstop, hinc', hstack, hdropped⟩ := aired_facts (.inl rfl) hwb hwair hdecided
        refine ⟨?_, hslots, fun hheld => absurd hheld hh, fun _ => ⟨?_, hair', hstop, hinc',
          by rw [hfb, slotBlocks_last hlast], by simp [hdropped, hwcount]⟩⟩
        · rw [hstack, hwstack]
          simpa using filter_absent hbstack
        · rw [hfinds a.id (Ne.symm hne), hwfind, if_pos rfl]

end Sys2Proof.Machine
end

section
/-! The marker step (O41). -/

namespace Sys2Proof.Machine

open Sys2Proof.Safety

/-! ### The on-air batch at a marker step (R90) -/

section
variable {c : Carrier} {sl : SlotRef} {u : State} {a : Batch}

theorem marksOnAir_pushes (ha : onAirBatch c u = some a) (hr : Remains a) (hp : a.cancelPending = false) :
    marksOnAir c sl u = pushOnAir c sl a.id u := by
  simp [marksOnAir, ha, (remaining_iff a).2 hr, hp]

theorem marksOnAir_stops (ha : onAirBatch c u = some a) (hr : Remains a) (hp : a.cancelPending = true) :
    marksOnAir c sl u = stopBatch c sl a.id .cancelled u := by
  simp [marksOnAir, ha, (remaining_iff a).2 hr, hp]

theorem marksOnAir_leaves (ha : onAirBatch c u = some a) (hr : ¬ Remains a) : marksOnAir c sl u = u := by
  have hrem : a.remaining = false := by rwa [← Bool.not_eq_true, remaining_iff]
  simp [marksOnAir, ha, hrem]

theorem marksOnAir_empty (ha : onAirBatch c u = none) : marksOnAir c sl u = u := by
  simp only [marksOnAir, ha]

end

/-- The end of a batch that no run names leaves the Launch Timer (R97). -/
theorem dropFromCarrier_timer {id : BatchId} {k : CarrierState} (h : ∀ r ∈ k.timer.runs, r.names id = false) :
    (dropFromCarrier id k).timer = k.timer := by
  have hmark (r : Run) (hr : r ∈ k.timer.runs) : markEnded id r = r := by
    unfold markEnded
    split
    · next hid =>
      have hended : r.ended = true := by simpa [Run.names, hid] using h r hr
      rw [← hended]
    · rfl
  have hopt (o : Option Run) (ho : ∀ r, o = some r → r ∈ k.timer.runs) : o.map (markEnded id) = o := by
    cases o with
    | none => rfl
    | some r => exact congrArg some (hmark r (ho r rfl))
  simp only [dropFromCarrier, hopt k.timer.active fun r hr => by simp [LaunchTimer.runs, hr],
    hopt k.timer.armed fun r hr => by simp [LaunchTimer.runs, hr], hopt k.timer.finishing fun r hr => by simp [LaunchTimer.runs, hr]]

theorem stopBatch_timer {c : Carrier} {sl : SlotRef} {u : State} {a : Batch} (hf : findBatch a.id u = some a) (hc : a.carrier = c)
    (why : StopReason) : ((stopBatch c sl a.id why u).car c).timer = (u.car c).timer := by
  by_cases hh : Held c a.id u
  · exact (stopBatch_waits hh why).2.1
  · have hnone : ∀ r ∈ ((assignCode c sl why.code (some a.id) u).car c).timer.runs, r.names a.id = false := fun r hr =>
      Bool.eq_false_iff.2 fun hn => hh ⟨r, by simpa using hr, hn⟩
    rw [stopBatch_unheld hh, codedEnd_car hf hc, show (_ : CarrierState).timer = _ from dropFromCarrier_timer hnone]
    simp

/-- With room on the stack a marker step leaves the Launch Timer, and the slot open. -/
theorem marksOnAir_kept {c : Carrier} {sl : SlotRef} {u : State} {l : List OpenSlot} {p : Program} {h : Option SlotOutcome}
    (hs : Scheduled u) (hroom : (u.car c).sched.stack.length < 4) (hd : Deciding c sl l p h u) :
    ((marksOnAir c sl u).car c).timer = (u.car c).timer ∧ ∃ o, Deciding c sl l p o (marksOnAir c sl u) := by
  cases ha : onAirBatch c u with
  | none =>
    rw [marksOnAir_empty ha]
    exact ⟨rfl, h, hd⟩
  | some a =>
    obtain ⟨hair, hf⟩ := onAirBatch_some ha
    by_cases hr : Remains a
    · cases hp : a.cancelPending with
      | true =>
        rw [marksOnAir_stops ha hr hp]
        exact ⟨stopBatch_timer hf (onAir_placed hs hair hf).1 _, _, deciding_stopBatch hd a.id .cancelled⟩
      | false =>
        rw [marksOnAir_pushes ha hr hp]
        obtain ⟨-, -, hsched⟩ := pushOnAir_roomy (c := c) (sl := sl) hf hroom
        refine ⟨?_, h, deciding_congr hd (by rw [hsched])⟩
        simp [pushOnAir, modSched, displaceOldest_roomy hroom]
    · rw [marksOnAir_leaves ha hr]
      exact ⟨rfl, h, hd⟩

/-! ### The marker step, bit by bit (R134 to R136) -/

section
variable {c : Carrier} {sl : SlotRef} {u : State} {bit : Bool} {rest : List Bool}

/-- The state once the oldest bit has left the sequence. -/
def popMarker (c : Carrier) (u : State) : State := u.modCar c fun k => { k with marker := k.marker.tail }

theorem popMarker_same (c : Carrier) (u : State) :
    (popMarker c u).car c = { u.car c with marker := (u.car c).marker.tail } := State.modCar_car_same ..

@[simp] theorem popMarker_keeps (c : Carrier) (u : State) : (popMarker c u).batches = u.batches ∧ (popMarker c u).align = u.align ∧
    (popMarker c u).now = u.now ∧ ∀ d, (popMarker c u).par d = u.par d := by simp [popMarker]

theorem markerStep_on (hm : (u.car c).marker = true :: rest) :
    markerStep c sl u = (.markerOn, popMarker c (marksOnAir c sl u)) := by
  simp [markerStep, popMarker, hm]

theorem markerStep_gap (hm : (u.car c).marker = false :: rest) :
    markerStep c sl u = (.markerGap, assignCode c sl .markerGap none (popMarker c (marksOnAir c sl u))) := by
  simp [markerStep, popMarker, hm]

end

section
variable {c : Carrier} {sl : SlotRef} {s : State} {bit : Bool} {rest : List Bool}

/-- The state that a marker step leaves to the program. -/
def marked (c : Carrier) (sl : SlotRef) (s : State) : State := popMarker c (marksOnAir c sl (opened c sl s))

theorem marked_same (c : Carrier) (sl : SlotRef) (s : State) : (marked c sl s).car c =
    { (marksOnAir c sl (opened c sl s)).car c with marker := (s.car c).marker.tail } := by
  rw [marked, popMarker_same]
  simp

theorem deciding_marked {l : List OpenSlot} {o : Option SlotOutcome}
    (hd : Deciding c sl l .quiet o (marksOnAir c sl (opened c sl s))) : Deciding c sl l .quiet o (marked c sl s) :=
  deciding_congr hd (by rw [marked_same])

theorem decideSlot_marker (h : Decides c sl s) (hk : (s.par c).markerSlot = some sl.index)
    (hm : (s.car c).marker = bit :: rest) {p : Program} {u : State} (hp : markerStep c sl (opened c sl s) = (p, u)) :
    decideSlot c sl s = takeProgram c sl p (setProgram c sl p u) := by
  obtain ⟨-, hcur, hl, -, hprobe, hpower⟩ := h
  refine decideSlot_eq hcur hl ((decisionSteps_marker ?_ ?_ ?_).trans hp)
  · simpa [probeOn] using hprobe
  · simpa using hpower
  · simp [markerDue, hk, hm]

theorem decision_markerOn (h : Decides c sl s) (hk : (s.par c).markerSlot = some sl.index)
    (hm : (s.car c).marker = true :: rest) :
    decideSlot c sl s = takeProgram c sl .markerOn (setProgram c sl .markerOn (marked c sl s)) :=
  decideSlot_marker h hk hm (markerStep_on (by simpa using hm))

theorem decision_markerGap (h : Decides c sl s) (hk : (s.par c).markerSlot = some sl.index)
    (hm : (s.car c).marker = false :: rest) : decideSlot c sl s = takeProgram c sl .markerGap
      (setProgram c sl .markerGap (assignCode c sl .markerGap none (marked c sl s))) :=
  decideSlot_marker h hk hm (markerStep_gap (by simpa using hm))

/-- Whatever the bit, the batches stand as the marker step leaves them. -/
theorem decision_marks (h : Decides c sl s) (hk : (s.par c).markerSlot = some sl.index) (hm : (s.car c).marker = bit :: rest) :
    ((decideSlot c sl s).car c).marker = rest ∧
      (decideSlot c sl s).batches = (marksOnAir c sl (opened c sl s)).batches ∧
      ((decideSlot c sl s).car c).counters = ((marksOnAir c sl (opened c sl s)).car c).counters ∧
      ((decideSlot c sl s).car c).sched.onAir = ((marksOnAir c sl (opened c sl s)).car c).sched.onAir ∧
      ((decideSlot c sl s).car c).sched.stop = ((marksOnAir c sl (opened c sl s)).car c).sched.stop ∧
      ((decideSlot c sl s).car c).sched.stack = ((marksOnAir c sl (opened c sl s)).car c).sched.stack := by
  have hbatches : (marked c sl s).batches = (marksOnAir c sl (opened c sl s)).batches := by simp [marked]
  cases bit with
  | true => rw [decision_markerOn h hk hm]; simp [takeProgram, marked_same, hm, hbatches]
  | false => rw [decision_markerGap h hk hm]; simp [takeProgram, marked_same, hm, hbatches]

/-- The slot of a marker step takes the program of its bit, with the code the step assigned, MARKER_GAP the lowest of them. -/
theorem decision_marks_slot (h : Decides c sl s) (hk : (s.par c).markerSlot = some sl.index) (hm : (s.car c).marker = bit :: rest)
    {l : List OpenSlot} {o : Option SlotOutcome} (hd : Deciding c sl l .quiet o (marksOnAir c sl (opened c sl s))) :
    ((decideSlot c sl s).car c).sched.openSlots = l ++ [if bit then { slot := sl, program := .markerOn, held := o }
      else { slot := sl, program := .markerGap, held := mergeCode o { code := .markerGap, id := none } }] := by
  cases bit with
  | true =>
    rw [decision_markerOn h hk hm]
    exact deciding_taken (deciding_marked hd) _
  | false =>
    rw [decision_markerGap h hk hm]
    exact deciding_taken (deciding_assignCode (deciding_marked hd) _ _) _

end

/-- Settles O41, by the on-air batch that the marker step meets, and then by the bit it takes. -/
theorem decisionMarks : Obligations.DecisionMarks := by
  unfold Obligations.DecisionMarks
  intro c s sl bit rest hd hm hl hfresh hs hprobe hpower hk hmarker hclaim hroom
  have h : Decides c sl s := ⟨hd, hm, hl, hfresh, hprobe, hpower⟩
  obtain ⟨hpop, hbatches, hcount, hair, hstop, hstack⟩ := decision_marks h hk hmarker
  obtain ⟨htimer, o, hslot⟩ := marksOnAir_kept (opened_scheduled hs sl) (by simpa using hroom) (decides_opened h)
  refine ⟨decideSlot c sl s, exec_decided h, hpop, fun a l ha hf hlast hle hp => ?_, fun a ha hf hr hp => ?_, fun a ha hf hr => ?_,
    fun ha => ?_, fun hbit => ?_, fun hbit => ?_, fun d hdc => decideSlot_others h hs hdc⟩
  · obtain ⟨hfind, -, hsched⟩ := pushOnAir_roomy (c := c) (sl := sl) (u := opened c sl s) (a := a) (by simpa using hf)
      (by simpa using hroom)
    rw [marksOnAir_pushes (opened_onAirBatch ha hf) ⟨l, hlast, hle⟩ hp] at hbatches hair hstack
    exact ⟨by rw [hair, hsched], by simp [hstack, hsched], by rw [findBatch_congr hbatches, hfind]⟩
  · have hstops := marksOnAir_stops (sl := sl) (opened_onAirBatch (sl := sl) ha hf) hr hp
    rw [hstops] at hbatches hcount hair hstop hstack
    obtain ⟨hac, -, hastack⟩ := onAir_placed hs ha hf
    have hslots := decision_marks_slot h hk hmarker (o := some { code := .cancelled, id := some a.id })
      (hstops ▸ deciding_stopBatch (decides_opened h) a.id .cancelled)
    have hgap : mergeCode (some { code := .cancelled, id := some a.id }) { code := .markerGap, id := none } =
        some { code := .cancelled, id := some a.id } := rfl
    rw [hgap] at hslots
    have hprogram : ((decideSlot c sl s).car c).sched.openSlots = (s.car c).sched.openSlots ++
        [{ slot := sl, program := if bit then .markerOn else .markerGap
           held := some { code := .cancelled, id := some a.id } }] := by
      rw [hslots]
      cases bit <;> rfl
    by_cases hh : Held c a.id s
    · obtain ⟨hsame, -, -, hwair, hwstop, -, hwstack⟩ := stopBatch_waits (u := opened c sl s) (sl := sl)
        ((opened_held a.id).2 hh) .cancelled
      exact ⟨by simp [hstack, hwstack], hprogram, fun _ => ⟨by simp [hbatches, hsame], by simp [hair, hwair, ha], by rw [hstop, hwstop]⟩,
        fun hnh => absurd hh hnh⟩
    · obtain ⟨hwfind, hwcount, hwair, hwstack⟩ := stopBatch_ends (u := opened c sl s) (sl := sl)
        (mt (opened_held a.id).1 hh) (by simpa using hf) hac (by simpa using ha) (by simpa using hastack) .cancelled
      exact ⟨by simp [hstack, hwstack], hprogram, fun hheld => absurd hheld hh,
        fun _ => ⟨by rw [findBatch_congr hbatches, hwfind, if_pos rfl], by rw [hair, hwair], by simp [hcount, hwcount]⟩⟩
  · rw [marksOnAir_leaves (opened_onAirBatch ha hf) hr] at hbatches hair hstack
    exact ⟨by simp [hbatches], by simp [hair, ha], by simp [hstack]⟩
  · rw [marksOnAir_empty (onAirBatch_none (by simpa using ha))] at hbatches hair hstack
    exact ⟨by simp [hbatches], by simp [hair, ha], by simp [hstack]⟩
  · subst hbit
    have hslots := decision_marks_slot h hk hmarker hslot
    have hrun : ((decideSlot c sl s).car c).timer =
        placeRun (formRun c sl (s.par c).markerGroup .a .marker s) (s.car c).timer ∧
        ((s.car c).key = .keyed ∨ (∃ e, (s.car c).key = .tail e) → ((decideSlot c sl s).car c).key = .keyed) := by
      rw [decision_markerOn h hk hmarker, takeProgram, launchRun_same, keyProgram_timer]
      refine ⟨?_, fun hkey => ?_⟩
      · have hpar : (setProgram c sl .markerOn (marked c sl s)).par c = s.par c := by simp [marked]
        have hold : ((setProgram c sl .markerOn (marked c sl s)).car c).timer = (s.car c).timer := by simp [marked_same, htimer]
        rw [formRun_congr (s := s) (by simp [marked]), hpar, hold]
      · have hkey' : ((setProgram c sl .markerOn (marked c sl s)).car c).key = (s.car c).key := by simp [marked_same]
        obtain hkey | ⟨e, hkey⟩ := hkey <;> simp [keyProgram, hkey', hkey]
    obtain ⟨hrun, hkey⟩ := hrun
    exact ⟨⟨_, hslots, rfl, rfl⟩, rfl, fun hnone => hrun.trans (placeRun_active hnone),
      fun x hx => hrun.trans (placeRun_armed hx), hkey⟩
  · subst hbit
    refine ⟨fun ha => ?_, ?_⟩
    · have hleft := marksOnAir_empty (sl := sl) (onAirBatch_none (c := c) (s := opened c sl s) (by simpa using ha))
      exact decision_marks_slot h hk hmarker (hleft ▸ decides_opened h)
    · rw [decision_markerGap h hk hmarker]
      simp [takeProgram, marked_same, htimer]

end Sys2Proof.Machine
end

section
/-! The START of a claimant, and a claimant that is dropped (O39). -/

namespace Sys2Proof.Machine

open Sys2Proof.Safety

/-! ### The margin of a START (R98, R99) -/

theorem marginLow_used (c : Carrier) : (Alarm.marginLow c).mask &&& usedAlarms = (Alarm.marginLow c).mask := by
  cases c <;> decide

theorem marginLow_ne_zero (c : Carrier) : (Alarm.marginLow c).mask ≠ 0 := by cases c <;> decide

theorem or_and_self (x m y : BitVec 32) : ((x ||| m) ||| y) &&& m = m := by
  ext i hi
  simp only [BitVec.getElem_and, BitVec.getElem_or]
  cases x[i] <;> cases m[i] <;> cases y[i] <;> rfl

/-- The alarms after a START is measured. -/
def marginAlarms (c : Carrier) (m : Nat) (s : State) : BitVec 32 :=
  if m < (s.par c).warn * 10000 then s.mgmt.alarms ||| (Alarm.marginLow c).mask
  else if (s.car c).sched.goodStarts + 1 = 64 ∧ s.mgmt.params.autoClear = true then
    s.mgmt.alarms &&& ~~~(Alarm.marginLow c).mask
  else s.mgmt.alarms

section
variable (c : Carrier) (b : Batch) (s : State)

theorem measureMargin_mgmt :
    (measureMargin c b s).mgmt = { s.mgmt with alarms := marginAlarms c (startMargin b s) s } := by
  unfold measureMargin marginAlarms
  dsimp only
  split_ifs <;> simp_all [modSched, latch, clearAlarmSet, countLowMargin, modCounters, marginLow_used, Config.goodStartLimit, Config.msTicks]

/-- What a START measured leaves on its carrier, `m` the margin. -/
theorem measureMargin_same : (measureMargin c b s).car c =
    if startMargin b s < (s.par c).warn * Config.msTicks then
      { s.car c with
        sched := { (s.car c).sched with lastMargin := some (startMargin b s), goodStarts := 0 }
        counters := { (s.car c).counters with lowMargins := satInc (s.car c).counters.lowMargins } }
    else
      { s.car c with
        sched := { (s.car c).sched with
          lastMargin := some (startMargin b s)
          goodStarts := if (s.car c).sched.goodStarts + 1 = 64 then 0 else (s.car c).sched.goodStarts + 1 } } := by
  unfold measureMargin
  dsimp only
  split_ifs <;> simp_all [modSched, latch, clearAlarmSet, countLowMargin, modCounters, Config.goodStartLimit]

end

/-! ### The run of a START, handed over (R27, R112) -/

theorem launchRun_mgmt (c : Carrier) (sl : SlotRef) (g : Fin 16) (rate : RateClass) (content : RunContent) (s : State) :
    (launchRun c sl g rate content s).mgmt = { s.mgmt with alarms := s.mgmt.alarms |||
      (if offsetClamped (slotOffset c g s) = true then (Alarm.offsetClamped c).mask else 0) } := by
  unfold launchRun latchIf
  split_ifs <;> simp [latch, *]

theorem offsetClamped_iff (raw : Int) : offsetClamped raw = true ↔ ¬ (-2500000 ≤ raw ∧ raw ≤ 2500000) := by
  have h := clampInt_eq_self_iff (lo := -2500000) (hi := 2500000) (by decide) raw
  rw [← h]
  exact decide_eq_true_iff

/-- A RELEASED key becomes PENDING, or KEYED on the centre word once the key-up instant is reached. -/
theorem keyProgram_released {now : Tick} {lead : Nat} {r : Run} {k : CarrierState} (h : k.key = .released) :
    keyProgram now lead r k = if tickReached now (keyUpInstant r lead) = true then openPeriod r k
      else { k with key := .pending (keyUpInstant r lead) } := by
  simp only [keyProgram, h]

/-- Carriers that agree on what a decision never touches differ in the rest at most. -/
theorem carrier_decided {k t : CarrierState} (hp : t.power = k.power) (hm : t.marker = k.marker) (hl : t.load = k.load)
    (hi : t.modPin = k.modPin) (ha : t.guardArmed = k.guardArmed) (hg : t.guardMarker = k.guardMarker) :
    t = { k with maps := t.maps, sched := t.sched, timer := t.timer, key := t.key, word := t.word, monitor := t.monitor
                 counters := t.counters } := by
  cases t
  cases k
  subst hp hm hl hi ha hg
  rfl

/-! ### The START of a claimant with nothing on air -/

section
variable {c : Carrier} {sl : SlotRef} {s : State} {b : Batch}

/-- The state whose START is measured: the slot open under its program. -/
def starting (c : Carrier) (sl : SlotRef) (b : Batch) (s : State) : State :=
  setProgram c sl (.start b.id) (opened c sl s)

@[simp] theorem starting_keeps (c : Carrier) (sl : SlotRef) (b : Batch) (s : State) :
    (starting c sl b s).mgmt = s.mgmt ∧ (starting c sl b s).align = s.align ∧ (starting c sl b s).now = s.now ∧
    (∀ d, (starting c sl b s).par d = s.par d) ∧ (∀ y, findBatch y (starting c sl b s) = findBatch y s) ∧
    ∀ d, ((starting c sl b s).car d).timer = (s.car d).timer ∧ ((starting c sl b s).car d).key = (s.car d).key ∧
      ((starting c sl b s).car d).word = (s.car d).word ∧ ((starting c sl b s).car d).monitor = (s.car d).monitor ∧
      ((starting c sl b s).car d).counters = (s.car d).counters ∧
      ((starting c sl b s).car d).sched.goodStarts = (s.car d).sched.goodStarts := by
  simp [starting, findBatch]

theorem decision_starts_fresh (h : Decides c sl s) (hs : Scheduled s)
    (hk : (s.par c).markerSlot ≠ some sl.index ∨ (s.car c).marker = [])
    (hclaim : (s.car c).maps.current.get sl.index = some b.id) (hb : findBatch b.id s = some b) (hcomplete : b.state = .complete)
    (hrow : RowOn c b s) (ha : (s.car c).sched.onAir = none) :
    decideSlot c sl s = takeProgram c sl (.start b.id) (starting c sl b s) := by
  obtain ⟨hbs, hc, -⟩ := claimant_of_claim hs h.2.2.1 hclaim hb
  have hair : ((opened c sl s).car c).sched.onAir = none := by simpa using ha
  exact decision_starts h hk hbs (claimantStep_starts hc hcomplete ((opened_rowOn b).2 hrow) (rival_empty hair))
    (continueStep_empty _ hair)

theorem takeProgram_starting (hb : findBatch b.id s = some b) : takeProgram c sl (.start b.id) (starting c sl b s) =
    programBatch c sl b (bringOnAir c b.id (measureMargin c b (starting c sl b s))) := by
  have hb' : findBatch b.id (starting c sl b s) = some b := by simpa using hb
  simp only [takeProgram, hb']

/-- The margin of a START, its count of good starts and the alarms it moves. -/
theorem started_margin (hb : findBatch b.id s = some b) {t : State} (ht : t = takeProgram c sl (.start b.id) (starting c sl b s)) :
    (t.car c).sched.lastMargin = some (startMargin b s) ∧
      (startMargin b s < (s.par c).warn * 10000 → (t.car c).sched.goodStarts = 0 ∧
        (t.car c).counters = { (s.car c).counters with lowMargins := satInc (s.car c).counters.lowMargins }) ∧
      ((s.par c).warn * 10000 ≤ startMargin b s → (t.car c).counters = (s.car c).counters ∧
        (t.car c).sched.goodStarts =
          if (s.car c).sched.goodStarts + 1 = 64 then 0 else (s.car c).sched.goodStarts + 1) ∧
      t.mgmt = { s.mgmt with alarms := marginAlarms c (startMargin b s) s |||
        (if offsetClamped (slotOffset c b.group s) = true then (Alarm.offsetClamped c).mask else 0) } := by
  have hmargin : startMargin b (starting c sl b s) = startMargin b s := by simp [startMargin]
  have hsame := measureMargin_same c b (starting c sl b s)
  rw [hmargin] at hsame
  have hmgmt : (measureMargin c b (starting c sl b s)).mgmt = { s.mgmt with alarms := marginAlarms c (startMargin b s) s } := by
    rw [measureMargin_mgmt, hmargin]
    simp [marginAlarms]
  rw [takeProgram_starting hb] at ht
  subst ht
  refine ⟨?_, fun hlow => ?_, fun hgood => ?_, ?_⟩
  · simp only [programBatch_car, bringOnAir_car, hsame]
    split_ifs <;> rfl
  · have hlow' : startMargin b s < ((starting c sl b s).par c).warn * Config.msTicks := by simpa [Config.msTicks] using hlow
    rw [if_pos hlow'] at hsame
    simp [hsame]
  · have hgood' : ¬ startMargin b s < ((starting c sl b s).par c).warn * Config.msTicks := by simpa [Config.msTicks] using hgood
    rw [if_neg hgood'] at hsame
    simp [hsame]
  · have hoffset (v : State) (hv : v.align = s.align) : slotOffset c b.group v = slotOffset c b.group s := by
      simp only [slotOffset, activeRow, activeRecord, hv]
    rw [programBatch, launchRun_mgmt, hoffset _ (by simp)]
    simp [hmgmt]

/-- Key Control and the Launch Timer after a START over a RELEASED key and no run. -/
theorem started_key (hb : findBatch b.id s = some b) (hkey : (s.car c).key = .released) (hruns : NoRuns (s.car c).timer) {t : State}
    (ht : t = takeProgram c sl (.start b.id) (starting c sl b s)) :
    (t.car c).timer = { active := some (batchRun c sl b s), armed := none, finishing := none
                        acc := (batchRun c sl b s).launch, step := (batchRun c sl b s).tfx } ∧
      (tickReached s.now (keyUpInstant (batchRun c sl b s) (s.par c).lead) = false →
        (t.car c).key = .pending (keyUpInstant (batchRun c sl b s) (s.par c).lead) ∧ (t.car c).word = (s.car c).word) ∧
      (tickReached s.now (keyUpInstant (batchRun c sl b s) (s.par c).lead) = true →
        (t.car c).key = .keyed ∧ (t.car c).word = centreWord (batchRun c sl b s).words ∧
        (t.car c).monitor.opening = some sl ∧ (t.car c).monitor.presence = none) := by
  obtain ⟨hactive, harmed, hfinishing⟩ := hruns
  have hrun (v : State) (hv : v.align = s.align) : batchRun c sl b v = batchRun c sl b s := batchRun_congr hv c sl b
  rw [takeProgram_starting hb] at ht
  subst ht
  refine ⟨?_, fun hlate => ?_, fun hlate => ?_⟩
  · rw [programBatch_timer, placeRun_active (by simp [hactive]), hrun _ (by simp)]
    simp only [bringOnAir_car, measureMargin_car, starting_keeps, harmed, hfinishing]
    rfl
  all_goals
    rw [programBatch_same, keyProgram_released (by simpa using hkey), hrun _ (by simp)]
    simp [hlate, openPeriod]
  rfl

end

/-- Settles O39: a START by its batch, its run, its key and its margin; a claimant that cannot start by the code of its slot. -/
theorem decisionStarts : Obligations.DecisionStarts := by
  unfold Obligations.DecisionStarts
  refine ⟨fun c s sl b l done hd hm hl hfresh hs hprobe hpower hmark hclaim hb hcomplete hlast hdone hrow ha hinc hruns hkey => ?_,
    fun c s sl b h hs hk hclaim hb hdrop ha hst => ?_⟩
  · have h : Decides c sl s := ⟨hd, hm, hl, hfresh, hprobe, hpower⟩
    have hdecided := decision_starts_fresh h hs (.inl hmark) hclaim hb hcomplete hrow ha
    obtain ⟨-, -, -, -, hbstack⟩ := claimant_of_claim hs hl hclaim hb
    obtain ⟨hfb, hfinds, hair, -, hinc', hstack, -⟩ := aired_facts (c := c) (sl := sl) (u := opened c sl s) (.inl rfl)
      (by simpa using hb) (by simpa using ha) hdecided
    obtain ⟨hlastMargin, hlow, hgood, hmgmt⟩ := started_margin hb hdecided
    obtain ⟨htimer, hpending, hkeyed⟩ := started_key hb hkey hruns hdecided
    have hmargin : startMargin b s = (s.tracker.tick - done).toNat := by
      rw [startMargin, hdone]
      rfl
    have hrun : batchRun c sl b s = formRun c sl b.group b.rate
        (.batch b.id b.nextBlock (min b.rate.blocks (l.index + 1 - b.nextBlock)) b.modulation l) s := by
      rw [batchRun, slotBlocks_last hlast, hlast, Option.getD_some]
    rw [hrun] at htimer hpending hkeyed
    rw [hmargin] at hlastMargin hlow hgood hmgmt
    refine ⟨decideSlot c sl s, exec_decided h, by rw [hfb, slotBlocks_last hlast], hair, hinc', ?_, ?_, htimer, ?_, hpending, hkeyed,
      hlastMargin, fun hm => ?_, hgood, ?_, ?_, ?_, ?_, ?_, ?_, ?_, fun id hid => ?_, fun d hdc => decideSlot_others h hs hdc⟩
    · rw [hstack, (opened_fields c sl s c).2.2.2.2.2.2.2.2.2.2.1]
      exact filter_absent hbstack
    · rw [hdecided]
      exact deciding_taken (decides_opened h) _
    · simp [hdecided, starting, opened_claimGone hl]
    · obtain ⟨hgs, hcount⟩ := hlow hm
      refine ⟨hgs, ?_, hcount⟩
      rw [latched, hmgmt, marginAlarms, if_pos hm, or_and_self]
      exact bne_iff_ne.2 (marginLow_ne_zero c)
    · exact carrier_decided (by simp [hdecided, starting]) (by simp [hdecided, starting])
        (by simp [hdecided, starting, opened_car hl]) (by simp [hdecided, starting, opened_car hl])
        (by simp [hdecided, starting, opened_car hl]) (by simp [hdecided, starting, opened_car hl])
    · simp [hdecided, starting]
    · simp [hdecided, starting]
    · simp [hdecided, starting]
    · simp [hdecided, starting]
    · simp [hdecided, starting]
    · rw [hmgmt]
      simp only [marginAlarms, offsetClamped_iff]
      congr 2
      rw [ite_not]
      rfl
    · rw [hfinds id hid]
      simp
  · have hl := h.2.2.1
    obtain ⟨hbs, hc, hair, hinc, hbstack⟩ := claimant_of_claim hs hl hclaim hb
    set v := dropClaimant c sl b (dropCode b).1 (dropCode b).2 (opened c sl s) with hv
    have hcar := dropClaimant_same hl hb hc hair hinc hbstack (dropCode b).1 (dropCode b).2
    rw [← hv] at hcar
    have hdecided : decideSlot c sl s = takeProgram c sl .quiet (setProgram c sl .quiet (assignCode c sl .quiet none v)) :=
      decideSlot_traffic h hk ((congrArg (trafficSteps c sl · _) hbs).trans
        (trafficSteps_quiet (claimantStep_drops hc (hdrop.imp_right (mt (opened_rowOn b).1)))
          (continueStep_empty none (by simp [← hv, hcar, ha])) (by simp [hcar, hst])))
    have hfind (y : BatchId) : findBatch y (decideSlot c sl s) = if y = b.id then none else findBatch y s := by
      have hbatches : (decideSlot c sl s).batches = v.batches := by simp [hdecided, takeProgram]
      rw [findBatch_congr hbatches, hv, dropClaimant, findBatch_codedEnd]
      simp
    have hcode : (dropCode b).1 =
        if b.state = .complete then .notInGroup else if b.malformed = true then .malformed else .incomplete := by
      unfold dropCode
      split_ifs <;> rfl
    have hsent : (dropCode b).2 ≠ .sent := by
      unfold dropCode
      split_ifs <;> simp
    refine ⟨decideSlot c sl s, exec_decided h, by rw [hfind, if_pos rfl], fun id hid => by rw [hfind, if_neg hid], ?_, ?_, ?_, ?_, ?_, ?_,
      fun d hdc => decideSlot_others h hs hdc⟩
    · simp [hdecided, hv, dropClaimant, endBatch_claimGone, opened_claimGone hl]
    · have hslots := deciding_taken (deciding_assignCode (u := v) (deciding_codedEnd (decides_opened h) (dropCode b).1 (some b.id)
        b.id (dropCode b).2) .quiet none) .quiet
      rw [hdecided, hslots, show mergeCode none _ = some _ from rfl, mergeCode_quiet, hcode]
    · simp [hdecided, takeProgram, hcar, endCounters, hsent]
    · simp [hdecided, takeProgram, hv]
    · simp [hdecided, takeProgram, hv]
    · simp [hdecided, takeProgram, hv]

end Sys2Proof.Machine
end

section
/-! The symbols of the active run (O45). -/

namespace Sys2Proof.Machine

open Sys2Proof.Safety

/-! ### What is driven at a symbol (R35, R37, R74, R118, R119, R135) -/

section
variable {r : Run} {s : State}

theorem symbolLevel_congr {s t : State} (hb : t.batches = s.batches) (hs : t.store = s.store) (r : Run) :
    symbolLevel r t = symbolLevel r s := by
  unfold symbolLevel blockNumber readBlock findBatch
  rw [hb, hs]

theorem tagMatches_congr {s t : State} (hb : t.batches = s.batches) (hs : t.store = s.store) (id : BatchId) (i : Nat) :
    tagMatches id i t = tagMatches id i s := by
  unfold tagMatches blockNumber readBlock findBatch
  rw [hb, hs]

theorem symbolLevel_marker (h : r.content = .marker) : symbolLevel r s = if r.pos % 2 = 0 then 3 else -3 := by
  simp only [symbolLevel, h, markerLevel]

variable {id : BatchId} {first count : Nat} {m : Modulation} {last : LastMark}

/-- A run draws from the store while its batch stands and its blocks last. -/
theorem blockPlace_batch (h : r.content = .batch id first count m last) (he : r.ended = false) (hp : r.pos / 40 < count) :
    r.blockPlace = some (id, first + r.pos / 40, r.pos % 40) := by
  simp [Run.blockPlace, h, he, hp]

theorem blockPlace_none (h : r.content = .batch id first count m last) (hp : r.ended = true ∨ count ≤ r.pos / 40) :
    r.blockPlace = none := by
  simp only [Run.blockPlace, h]
  rw [if_neg]
  obtain hp | hp := hp
  · simp [hp]
  · simp [Nat.not_lt.2 hp]

theorem symbolLevel_nothing (h : r.content = .batch id first count m last) (hp : r.ended = true ∨ count ≤ r.pos / 40) :
    symbolLevel r s = 0 := by
  simp only [symbolLevel, h, blockPlace_none h hp]

theorem symbolLevel_past (h : r.content = .batch id first count m last) (he : r.ended = false) (hp : r.pos / 40 < count)
    (hi : first + r.pos / 40 = last.index) (hl : last.count ≤ r.pos % 40) : symbolLevel r s = 0 := by
  simp [symbolLevel, h, blockPlace_batch h he hp, hi, hl]

theorem symbolLevel_stored (h : r.content = .batch id first count m last) (he : r.ended = false) (hp : r.pos / 40 < count)
    (hi : first + r.pos / 40 ≠ last.index ∨ r.pos % 40 < last.count) {b : Batch} {n : Nat} (hb : findBatch id s = some b)
    (hn : b.blocks.getD (first + r.pos / 40) none = some n) :
    symbolLevel r s = levelOf m (codeAt (readBlock n s).codes (r.pos % 40)) := by
  have hblock : blockNumber id (first + r.pos / 40) s = some n := by simp only [blockNumber, hb, Option.bind_some, hn]
  have hlast : ¬ (first + r.pos / 40 = last.index ∧ last.count ≤ r.pos % 40) := fun ⟨h1, h2⟩ =>
    hi.elim (fun hne => hne h1) fun hlt => absurd h2 (Nat.not_le.2 hlt)
  simp only [symbolLevel, h, blockPlace_batch h he hp, hblock, Bool.and_eq_true, decide_eq_true_eq]
  rw [if_neg hlast]

end

theorem levelOf_level4 (code : BitVec 2) : levelOf .level4 code = 2 * (code.toNat : Int) - 3 := by
  unfold levelOf
  revert code
  decide

theorem levelOf_level2 (code : BitVec 2) : levelOf .level2 code = if 2 ≤ code.toNat then 3 else -3 := by
  unfold levelOf
  revert code
  decide

/-! ### The key-up before symbol 0 (R113, R114, log 36) -/

/-- The carrier once symbol 0 has keyed it where its key-up falls at this very tick. -/
def keyedFirst (c : Carrier) (r : Run) (s : State) : CarrierState :=
  if r.pos = 0 ∧ (s.car c).key = .pending s.tracker.tick then
    { s.car c with key := .keyed, word := centreWord r.words
                   monitor := { (s.car c).monitor with opening := some r.slot, presence := none } }
  else s.car c

theorem keyFirst_eq {c : Carrier} {r : Run} {s : State} (hr : (s.car c).timer.active = some r) :
    keyFirst c r s = s.setCar c (keyedFirst c r s) := by
  have hself : s = s.setCar c (s.car c) := (s.setCar_self c).symm
  unfold keyFirst keyedFirst
  by_cases hp : r.pos = 0
  · rw [if_pos hp]
    by_cases hk : (s.car c).key = .pending s.tracker.tick
    · rw [if_pos ⟨hp, hk⟩]
      exact keyUp_due hk hr
    · rw [if_neg fun h => hk h.2, ← hself]
      exact if_neg hk
  · rw [if_neg hp, if_neg fun h => hp h.1]
    exact hself

/-! ### The check and the word of a symbol (R37, R38, R124) -/

/-- Symbol 0 of the opening run makes the NO_CARRIER check. -/
def Opens (r : Run) (k : CarrierState) : Prop := r.pos = 0 ∧ k.monitor.opening = some r.slot

section
variable (c : Carrier) (r : Run) (u : State)

theorem checkCarrier_opens {c : Carrier} {r : Run} {u : State} (h : Opens r (u.car c)) : checkCarrier c r u =
    (u.setCar c { u.car c with monitor := { (u.car c).monitor with
        opening := none, checked := some { tick := u.tracker.tick, wasClear := !latched (.noCarrier c) u } } }).setMgmt
      { u.mgmt with alarms := u.mgmt.alarms ||| (if (u.car c).monitor.rfSense = true then 0 else (Alarm.noCarrier c).mask) } := by
  unfold checkCarrier
  rw [if_pos (by simpa [Opens] using h)]
  cases hrf : (u.car c).monitor.rfSense with
  | true =>
    have hor : u.mgmt.alarms ||| 0 = u.mgmt.alarms := BitVec.or_zero
    rw [if_pos rfl, hor]
    rfl
  | false => rfl

theorem checkCarrier_plain {c : Carrier} {r : Run} {u : State} (h : ¬ Opens r (u.car c)) : checkCarrier c r u = u := by
  unfold checkCarrier
  rw [if_neg (by simpa [Opens] using h)]

theorem driveSymbol_eq (w : WordSet) (v : Int) : driveSymbol c w v u = u.setCar c { u.car c with
    word := wordOf w v, counters := drivenCounters w v (u.car c).counters } := by
  unfold driveSymbol drivenCounters
  dsimp only
  cases wordClamped w v
  · rfl
  · simp [countClampedWord, modCounters, State.modCar]

theorem advanceRun_eq : advanceRun c r u = u.setCar c { u.car c with timer := advanceTimer r (u.car c).timer } := rfl

end

/-- The timer after a position of its active run is that of `RunAdvances`. -/
theorem advanceTimer_spec (r : Run) (x : LaunchTimer) : RunAdvances r x (advanceTimer r x) := by
  refine ⟨fun h => ?_, fun h hn => ?_, fun a h ha => ?_⟩
  · exact if_pos h
  · refine (if_neg (Nat.not_lt.2 h)).trans ?_
    simp only [hn]
  · refine (if_neg (Nat.not_lt.2 h)).trans ?_
    simp only [ha]
    rfl

theorem State.setMgmt_setCar (s : State) (c : Carrier) (k : CarrierState) (m : Mgmt) :
    (s.setMgmt m).setCar c k = (s.setCar c k).setMgmt m := rfl

/-! ### One symbol -/

/-- A position that closes no block, its first place's tag being HELD, drives its word and advances. -/
theorem emitSymbol_plain {c : Carrier} {r : Run} {u : State} (h : ∀ id i j, r.blockPlace = some (id, i, j) →
    j ≠ 39 ∧ (j = 0 → tagMatches id i u = true)) : emitSymbol c r u = advanceRun c r (emitWord c r u) := by
  unfold emitSymbol
  split
  · rfl
  · next id i j hplace =>
    obtain ⟨hlast, hfirst⟩ := h id i j hplace
    rw [if_neg, if_neg hlast]
    simp only [Bool.and_eq_true, decide_eq_true_eq, Bool.not_eq_true', not_and, Bool.not_eq_false]
    exact hfirst

theorem exec_symbolEmit {c : Carrier} {s : State} {r : Run} (hr : (s.car c).timer.active = some r)
    (ht : s.tracker.tick = fxTick (s.car c).timer.acc) :
    exec (.symbolEmit c) s = .next (emitSymbol c r (s.setCar c (keyedFirst c r s))) := by
  refine congrArg Host.Outcome.next ?_
  simp only [symbolEmit, hr]
  exact (if_pos ht).trans (congrArg _ (keyFirst_eq hr))

theorem keyedFirst_same (c : Carrier) (r : Run) (s : State) :
    keyedFirst c r s = { s.car c with
      key := (keyedFirst c r s).key, word := (keyedFirst c r s).word, monitor := (keyedFirst c r s).monitor } := by
  unfold keyedFirst
  split <;> rfl

theorem keyedFirst_rfSense (c : Carrier) (r : Run) (s : State) :
    (keyedFirst c r s).monitor.rfSense = (s.car c).monitor.rfSense := by
  unfold keyedFirst
  split <;> rfl

theorem tagMatches_held {id : BatchId} {i : Nat} {s : State} (h : ∃ b n, findBatch id s = some b ∧
    b.blocks.getD i none = some n ∧ (readBlock n s).tag = .held id i) : tagMatches id i s = true := by
  obtain ⟨b, n, hb, hn, ht⟩ := h
  have hblock : blockNumber id i s = some n := by rw [blockNumber, hb, Option.bind_some, hn]
  simp only [tagMatches, hblock, ht, decide_true]

/-- Settles O45: the plain symbol is one drive of the word and one advance of the timer, over the carrier keyed first. -/
theorem symbolEmitted : Obligations.SymbolEmitted := by
  unfold Obligations.SymbolEmitted
  intro c s r hr ht hplace
  have hplain := emitSymbol_plain (c := c) (r := r) (u := s.setCar c (keyedFirst c r s)) fun id i j hp =>
    ⟨(hplace id i j hp).1, fun hj => tagMatches_held ((hplace id i j hp).2 hj)⟩
  have hlevel : symbolLevel r (s.setCar c (keyedFirst c r s)) = symbolLevel r s := symbolLevel_congr rfl rfl r
  rw [emitWord, hlevel] at hplain
  have hlatched : latched (.noCarrier c) (s.setCar c (keyedFirst c r s)) = latched (.noCarrier c) s := rfl
  refine ⟨_, (exec_symbolEmit hr ht).trans (congrArg _ hplain), ?_⟩
  intro v k opens
  have hv : v = symbolLevel r s := rfl
  have hk : k = keyedFirst c r s := rfl
  have hopens : opens = Opens r k := rfl
  have hsame : k = { s.car c with key := k.key, word := k.word, monitor := k.monitor } := keyedFirst_same c r s
  have hrf : k.monitor.rfSense = (s.car c).monitor.rfSense := keyedFirst_rfSense c r s
  clear_value opens k v
  subst hv hopens
  rw [← hk] at hlatched ⊢
  refine ⟨fun h => symbolLevel_marker h, fun id first count m last h => ⟨symbolLevel_nothing h,
    fun he hp hi hl => symbolLevel_past h he hp hi hl, fun b n he hp hi hb hn => ⟨fun hm => ?_, fun hm => ?_⟩⟩, ?_⟩
  · rw [symbolLevel_stored h he hp hi hb hn, hm, levelOf_level4]
  · rw [symbolLevel_stored h he hp hi hb hn, hm, levelOf_level2]
  · obtain ⟨hmoves, hends, harmed⟩ := advanceTimer_spec r (s.car c).timer
    have htimer : k.timer = (s.car c).timer := by rw [hsame]
    have hcounters : k.counters = (s.car c).counters := by rw [hsame]
    have hdriven (w : State) (hw : (w.car c).timer = (s.car c).timer ∧ (w.car c).counters = (s.car c).counters) :
        advanceRun c r (driveSymbol c r.words (symbolLevel r s) w) = w.setCar c { w.car c with
          word := wordOf r.words (symbolLevel r s)
          counters := drivenCounters r.words (symbolLevel r s) (s.car c).counters
          timer := advanceTimer r (s.car c).timer } := by
      rw [advanceRun_eq, driveSymbol_eq]
      simp [hw]
    by_cases ho : Opens r k
    · rw [checkCarrier_opens (by simpa using ho), hdriven _ (by simp [htimer, hcounters])]
      refine ⟨by simp, by simp [drivenCounters], by simpa using hmoves, by simpa using hends, by simpa using harmed,
        fun _ => ⟨by simp [hlatched], by simp [hrf]⟩, fun hno => absurd ho hno, by simp, ?_⟩
      rw [State.setMgmt_setCar, State.setCar_setCar]
      simp
    · rw [checkCarrier_plain (by simpa using ho), hdriven _ (by simp [htimer, hcounters])]
      refine ⟨by simp, by simp [drivenCounters], by simpa using hmoves, by simpa using hends, by simpa using harmed,
        fun hyes => absurd hyes ho, fun _ => ⟨by simp, by simp⟩, by simp, ?_⟩
      rw [State.setCar_car_same, State.setCar_setCar, State.setCar_car_same]
      rfl

end Sys2Proof.Machine
end

section
/-! The payload end of the finishing run (O47). -/

namespace Sys2Proof.Machine

open Sys2Proof.Safety

/-! ### Runs and records past the end of a batch -/

/-- The end of a batch marks runs, and adds or takes none. -/
theorem endBatch_runs (id : BatchId) (why : EndReason) (s : State) (d : Carrier) :
    ((endBatch id why s).car d).timer.active.isNone = (s.car d).timer.active.isNone ∧
    ((endBatch id why s).car d).timer.armed.isNone = (s.car d).timer.armed.isNone ∧
    ((endBatch id why s).car d).timer.finishing.isNone = (s.car d).timer.finishing.isNone := by
  cases hf : findBatch id s with
  | none => rw [endBatch_none hf]; exact ⟨rfl, rfl, rfl⟩
  | some b =>
    obtain ⟨-, -, -, hcar, hothers⟩ := endBatch_some hf why
    by_cases hd : d = b.carrier
    · subst hd
      rw [hcar]
      simp [dropFromCarrier]
    · rw [hothers d hd]
      exact ⟨rfl, rfl, rfl⟩

theorem findBatch_handOver_none {c : Carrier} {id : BatchId} {s : State} (h : findBatch id s = none) :
    findBatch id (handOver c s) = none := by
  cases ha : (s.car c).sched.onAir with
  | some a => rw [handOver_none (.inl (by simp [ha])), h]
  | none =>
    cases hi : (s.car c).sched.incoming with
    | none => rw [handOver_none (.inr hi), h]
    | some x =>
      rw [handOver_some ha hi]
      refine (findBatch_modBatch (f := fun b => { b with state := .onAir }) (fun _ => rfl) _ id).trans ?_
      rw [findBatch_congr (s := s) (by simp [modSched]), h]
      exact ite_self _

/-- The incoming batch is not the one on air, and its record stands (R96). -/
theorem incoming_placed {c : Carrier} {s : State} (h : Scheduled s) {x : BatchId} (hi : (s.car c).sched.incoming = some x) :
    (∃ b, findBatch x s = some b ∧ b.carrier = c) ∧ (s.car c).sched.onAir ≠ some x := by
  obtain ⟨-, -, -, hrec, -, -, hinc⟩ := h.2 c
  obtain ⟨b, hb, hc, hstate⟩ := hinc x hi
  obtain ⟨rfl, hmem⟩ := findBatch_some hb
  refine ⟨⟨b, hb, hc⟩, fun ha => ?_⟩
  have hon := (hrec b hmem hc).1.2 ha
  rcases hstate with hs | hs <;> cases hon.symm.trans hs

/-- With nothing on air the incoming batch is handed over. -/
theorem handOver_takes {c : Carrier} {s : State} {x : BatchId} (ha : (s.car c).sched.onAir = none)
    (hi : (s.car c).sched.incoming = some x) :
    ((handOver c s).car c).sched = { (s.car c).sched with
      onAir := some x, stop := none, incoming := none, stack := (s.car c).sched.stack.filter fun y => y ≠ x } ∧
    ∀ y, findBatch y (handOver c s) =
      if y = x then (findBatch y s).map fun b => { b with state := .onAir } else findBatch y s := by
  rw [handOver_some ha hi]
  exact ⟨by simp [modSched_sched],
    fun y => (findBatch_modBatch (f := fun b => { b with state := .onAir }) (fun _ => rfl) _ y).trans rfl⟩

/-- A batch ends and, if it was on air, the incoming one takes its place. -/
def PassedOn (c : Carrier) (id : BatchId) (s t : State) : Prop :=
  (s.car c).sched.onAir = some id →
    ((s.car c).sched.incoming = none → (t.car c).sched.onAir = none) ∧
    ∀ x, (s.car c).sched.incoming = some x → (t.car c).sched.onAir = some x ∧ (t.car c).sched.incoming = none ∧
      x ∉ (t.car c).sched.stack ∧ (findBatch x t).map Batch.state = some .onAir

theorem endBatch_passedOn {c : Carrier} {id : BatchId} {s : State} {b : Batch} (h : Scheduled s) (hf : findBatch id s = some b)
    (hc : b.carrier = c) (why : EndReason) :
    findBatch id (handOver c (endBatch id why s)) = none ∧
      ((handOver c (endBatch id why s)).car c).counters = endCounters why (s.car c).counters ∧
      ((s.car c).sched.onAir = some id → ((handOver c (endBatch id why s)).car c).sched.stop = none) ∧
      PassedOn c id s (handOver c (endBatch id why s)) := by
  obtain ⟨-, -, hfind, hcar, -⟩ := endBatch_some hf why
  rw [hc] at hcar
  have hair (ha : (s.car c).sched.onAir = some id) : ((endBatch id why s).car c).sched.onAir = none := by
    simp [hcar, dropFromCarrier, ha]
  have hstop (ha : (s.car c).sched.onAir = some id) : ((endBatch id why s).car c).sched.stop = none := by
    simp [hcar, dropFromCarrier, ha]
  refine ⟨findBatch_handOver_none ((hfind id).trans (if_pos rfl)), by simp [hcar], fun ha => ?_, fun ha => ⟨fun hi => ?_, fun x hi => ?_⟩⟩
  · cases hi : ((endBatch id why s).car c).sched.incoming with
    | none => rw [handOver_none (.inr hi), hstop ha]
    | some x => rw [(handOver_takes (hair ha) hi).1]
  · rw [handOver_none (.inr (by simp [hcar, dropFromCarrier, hi])), hair ha]
  · obtain ⟨⟨y, hy, -⟩, hne⟩ := incoming_placed h hi
    have hxid : x ≠ id := fun e => hne (e ▸ ha)
    obtain ⟨hsched, hfinds⟩ := handOver_takes (x := x) (hair ha) (by simp [hcar, dropFromCarrier, hi, hxid])
    rw [hsched]
    refine ⟨rfl, rfl, by simp, ?_⟩
    rw [hfinds, if_pos rfl, hfind, if_neg hxid, hy]
    rfl

/-! ### What the run settles (R31, R92, R97, R100) -/

section
variable {c : Carrier} {r : Run} {u : State}

theorem settleRun_marker (h : r.content = .marker) : settleRun c r u = assignCode c r.slot .markerSent none u := by
  simp only [settleRun, h]

variable {id : BatchId} {first count : Nat} {m : Modulation} {last : LastMark} (h : r.content = .batch id first count m last)
include h

theorem settleRun_ended (he : r.ended = true) : settleRun c r u = u := by
  simp [settleRun, h, he]

theorem settleRun_last (he : r.ended = false) (hl : last.index < first + count) : settleRun c r u =
    handOver c (endBatch id .sent (assignCode c r.slot .sent (some id) u)) := by
  simp [settleRun, h, he, hl]

theorem settleRun_stopped (he : r.ended = false) (hl : first + count ≤ last.index) {why : StopReason}
    (hs : (u.car c).sched.stop = some why) (ha : (u.car c).sched.onAir = some id) : settleRun c r u =
    handOver c (endBatch id why.reason (assignCode c r.slot .sent (some id) u)) := by
  simp [settleRun, h, he, Nat.not_lt.2 hl, hs, ha]

theorem settleRun_goesOn (he : r.ended = false) (hl : first + count ≤ last.index)
    (hs : (u.car c).sched.stop = none ∨ (u.car c).sched.onAir ≠ some id) :
    settleRun c r u = assignCode c r.slot .sent (some id) u := by
  simp only [settleRun, h, he, Bool.false_eq_true, if_false, Nat.not_lt.2 hl]
  obtain hs | hs := hs
  · rw [hs]
  · split
    · exact if_neg hs
    · rfl

end

/-- A payload end gives the run's slot one code, whatever ends with it. -/
theorem settleRun_slots {c : Carrier} {r : Run} {u : State} {code : OutcomeCode} {id : Option BatchId}
    (h : (r.content = .marker ∧ code = .markerSent ∧ id = none) ∨ (r.ended = false ∧ code = .sent ∧ id = r.batchId ∧ r.batchId ≠ none)) :
    ((settleRun c r u).car c).sched.openSlots = assignIn r.slot { code := code, id := id } (u.car c).sched.openSlots := by
  obtain ⟨hm, rfl, rfl⟩ | ⟨he, rfl, rfl, hid⟩ := h
  · rw [settleRun_marker hm, assignCode_same]
  · cases hc : r.content with
    | marker => simp [Run.batchId, hc] at hid
    | batch x first count m last =>
      have hbatch : r.batchId = some x := by simp only [Run.batchId, hc]
      rw [hbatch]
      simp only [settleRun, hc, he, Bool.false_eq_true, if_false]
      repeat' split
      all_goals simp [assignCode_same]

theorem settleRun_runs (c : Carrier) (r : Run) (u : State) :
    ((settleRun c r u).car c).timer.active.isNone = (u.car c).timer.active.isNone ∧
    ((settleRun c r u).car c).timer.armed.isNone = (u.car c).timer.armed.isNone ∧
    ((settleRun c r u).car c).timer.finishing.isNone = (u.car c).timer.finishing.isNone := by
  unfold settleRun
  dsimp only
  repeat' split
  all_goals simp only [handOver_car, assignCode_car, endBatch_runs, and_self]

theorem settleRun_others {c d : Carrier} {r : Run} {u : State} (h : ∀ id, r.batchId = some id → HomeOf c id u) (hd : d ≠ c) :
    (settleRun c r u).car d = u.car d := by
  cases hc : r.content with
  | marker => simp [settleRun_marker hc, hd]
  | batch id first count m last =>
    have hend (why : EndReason) : (handOver c (endBatch id why (assignCode c r.slot .sent (some id) u))).car d = u.car d := by
      rw [(handOver_keeps c _).2.2.2.2.2.2.2.2.2.2 d hd]
      exact codedEnd_others (h id (by simp only [Run.batchId, hc])) _ _ _ _ hd
    simp only [settleRun, hc]
    repeat' split
    all_goals simp [hend, hd]

/-! ### The state at a payload end (R34, R38, R114) -/

/-- The finishing run gone, and the carrier on its centre word unless a later run emits. -/
def centred (c : Carrier) (r : Run) (s : State) : State :=
  (modTimer c (fun t => { t with finishing := none }) s).modCar c (centreAfter r)

@[simp] theorem centred_keeps (c : Carrier) (r : Run) (s : State) :
    (centred c r s).tracker = s.tracker ∧ (centred c r s).align = s.align ∧ (centred c r s).batches = s.batches ∧
    (centred c r s).probe = s.probe ∧ (centred c r s).link = s.link ∧ (centred c r s).mgmt = s.mgmt ∧
    (centred c r s).now = s.now ∧ (∀ d, (centred c r s).par d = s.par d) ∧ ∀ d, d ≠ c → (centred c r s).car d = s.car d := by
  simp +contextual [centred, modTimer, State.modCar_car_other]

theorem centred_same {c : Carrier} {s : State} (hk : (s.car c).key = .keyed) (r : Run) : (centred c r s).car c = { s.car c with
    timer := { (s.car c).timer with finishing := none }
    word := if laterSymbol (s.car c).timer = true then (s.car c).word else centreWord r.words } := by
  have hlater : laterSymbol { (s.car c).timer with finishing := none } = laterSymbol (s.car c).timer := rfl
  rw [centred, modTimer, State.modCar_car_same, State.modCar_car_same]
  simp only [centreAfter, hk, keyLine, hlater]
  cases laterSymbol (s.car c).timer <;> rfl

theorem centred_scheduled {c : Carrier} {r : Run} {s : State} (hk : (s.car c).key = .keyed) (h : Scheduled s) :
    Scheduled (centred c r s) := by
  have hsame (d : Carrier) : ((centred c r s).car d).maps = (s.car d).maps ∧ ((centred c r s).car d).sched = (s.car d).sched := by
    by_cases hd : d = c
    · subst hd
      rw [centred_same hk]
      exact ⟨rfl, rfl⟩
    · simp [hd]
  exact scheduled_congr (by simp) (fun d => (hsame d).1) (fun d => by rw [(hsame d).2]) (fun d => by rw [(hsame d).2])
    (fun d => by rw [(hsame d).2]) h

theorem exec_payloadEnd {c : Carrier} {s : State} {r : Run} (hr : (s.car c).timer.finishing = some r)
    (ht : s.tracker.tick = r.payloadEnd) :
    exec (.payloadEnd c) s = .next (startTail c (settleRun c r (centred c r s))) := by
  refine congrArg Host.Outcome.next ?_
  simp only [payloadEnd, hr]
  exact if_pos ht

/-- With no later run the key goes to TAIL, or is released where the tail is 0. -/
theorem startTail_last {c : Carrier} {w : State} (hk : (w.car c).key = .keyed) (ha : (w.car c).timer.active.isNone = true)
    (hm : (w.car c).timer.armed.isNone = true) :
    ((w.par c).tail = 0 → ((startTail c w).car c).key = .released ∧ ((startTail c w).car c).word = centreWord (activeWords c w)) ∧
    ((w.par c).tail ≠ 0 → ((startTail c w).car c).key = .tail (tickAdd w.now ((w.par c).tail * Config.msTicks)) ∧
      ((startTail c w).car c).word = (w.car c).word) := by
  have hstart : startTail c w = if (w.par c).tail = 0 then dropKey c w
      else w.modCar c fun k => { k with key := .tail (tickAdd w.now ((w.par c).tail * Config.msTicks)) } :=
    if_pos (by simp [hk, ha, hm])
  refine ⟨fun h => ?_, fun h => ?_⟩
  · rw [hstart, if_pos h, dropKey_eq]
    simp
  · rw [hstart, if_neg h]
    simp

theorem startTail_later {c : Carrier} {w : State}
    (h : (w.car c).timer.active.isNone = false ∨ (w.car c).timer.armed.isNone = false) : startTail c w = w := by
  refine if_neg fun hc => ?_
  simp only [Bool.and_eq_true] at hc
  obtain ⟨⟨-, ha⟩, hm⟩ := hc
  rcases h with h | h
  · rw [h] at ha; cases ha
  · rw [h] at hm; cases hm

/-- Settles O47: what the finishing run settles (`settleRun_*`) over the carrier centred, and then the tail. -/
theorem payloadEnds : Obligations.PayloadEnds := by
  unfold Obligations.PayloadEnds
  intro c s r hr ht hk hs hhome
  have hsame := centred_same hk r
  have hsched : ((centred c r s).car c).sched = (s.car c).sched := by rw [hsame]
  have hcount : ((centred c r s).car c).counters = (s.car c).counters := by rw [hsame]
  have hkey : ((settleRun c r (centred c r s)).car c).key = .keyed := by simp [hsame, hk]
  obtain ⟨hactive, harmed, hfinishing⟩ := settleRun_runs c r (centred c r s)
  simp only [hsame] at hactive harmed hfinishing
  have hfind (y : BatchId) : findBatch y (centred c r s) = findBatch y s := findBatch_congr (by simp) y
  have hhome' (id : BatchId) (hid : r.batchId = some id) : HomeOf c id (centred c r s) := fun b hb =>
    hhome id b hid (by rwa [hfind] at hb)
  refine ⟨_, exec_payloadEnd hr ht, by simpa using hfinishing, fun ha hm => ?_, fun hlater => ?_, fun code id hcode => ?_, fun hm => ?_,
    fun id hid he => ?_, fun id first count m last b hc he hb => ?_, by simp, by simp, by simp, by simp, by simp, fun d hd => ?_⟩
  · obtain ⟨hzero, htail⟩ := startTail_last hkey (by rw [hactive, ha]; rfl) (by rw [harmed, hm]; rfl)
    refine ⟨fun h0 => ?_, fun h0 => ?_⟩
    · obtain ⟨hkey', hword⟩ := hzero (by simpa using h0)
      refine ⟨hkey', hword.trans ?_⟩
      simp [activeWords, activeRecord]
    · obtain ⟨hkey', hword⟩ := htail (by simpa using h0)
      refine ⟨hkey'.trans (by simp [tickAdd, Config.msTicks, State.now]), hword.trans ?_⟩
      simp [hsame, laterSymbol, ha]
  · rw [startTail_later, hkey]
    rw [hactive, harmed]
    exact hlater.imp (by simp) (by simp)
  · have hslots := settleRun_slots (c := c) (u := centred c r s) (hcode.imp_right fun ⟨he, hsent, hid, x, b, hx, _⟩ =>
      ⟨he, hsent, hid, by simp [hx]⟩)
    rw [hsched] at hslots
    have hopen (hex : ∃ o ∈ (s.car c).sched.openSlots, o.slot = r.slot) :
        ((startTail c (settleRun c r (centred c r s))).car c).sched.openSlots =
          coded (fun x => x = r.slot) { code := code, id := id } (s.car c).sched.openSlots := by
      simp [hslots, assignIn_open hex]
    refine ⟨by simp [hslots], hopen, fun o ho hslot hheld => ?_⟩
    rw [hopen ⟨o, ho, hslot⟩]
    refine List.mem_map.2 ⟨o, ho, ?_⟩
    rw [if_pos (by simp [hslot]), hheld]
    rfl
  · rw [settleRun_marker hm]
    simp [hcount]
  · cases hc : r.content with
    | marker => simp [Run.batchId, hc] at hid
    | batch x first count m last =>
      rw [settleRun_ended hc he]
      simp [hcount, hsched]
  · have hid : r.batchId = some id := by simp only [Run.batchId, hc]
    have hcs : Scheduled (assignCode c r.slot .sent (some id) (centred c r s)) := scheduled_assignCode (centred_scheduled hk hs) _ _ _ _
    have hcf : findBatch id (assignCode c r.slot .sent (some id) (centred c r s)) = some b := by
      rw [findBatch_assignCode, hfind, hb]
    have hends (why : EndReason) := endBatch_passedOn hcs hcf (hhome id b hid hb) why
    simp only [PassedOn, assignCode_car, hsched, hcount] at hends
    refine ⟨fun hl => ?_, fun why hl hstop hair => ?_, fun hl hstay => ?_⟩
    · obtain ⟨hnone, hcounters, -, hpassed⟩ := hends .sent
      simp only [settleRun_last hc he hl, startTail_car, findBatch_congr (startTail_keeps c _).2.2.1]
      exact ⟨hnone, hcounters, hpassed⟩
    · obtain ⟨hnone, hcounters, hstopped, hpassed⟩ := hends why.reason
      simp only [settleRun_stopped hc he hl (by rw [hsched, hstop]) (by rw [hsched, hair]), startTail_car, findBatch_congr (startTail_keeps c _).2.2.1]
      exact ⟨hnone, hstopped hair, by cases why <;> exact hcounters, hpassed⟩
    · rw [settleRun_goesOn hc he hl (by rwa [hsched])]
      simp [hcount]
  · rw [(startTail_keeps c _).2.2.2.2.2.2.2.2.2.2.2 d hd, settleRun_others hhome' hd]
    simp [hd]

end Sys2Proof.Machine
end

section
/-! The store guard (O46). -/

namespace Sys2Proof.Machine

open Sys2Proof.Safety

/-! ### What a discarded run takes back from its batch (R97) -/

theorem setBack_unnamed {q : Run} {x : BatchId} (h : q.names x = false) (u : State) : findBatch x (setBack q u) = findBatch x u := by
  unfold setBack
  split
  · next id first count m last hc =>
    split
    · rfl
    · next he =>
      have hne : x ≠ id := by
        rintro rfl
        simp [Run.names, Run.batchId, hc, he] at h
      exact (findBatch_modBatch (f := fun b => { b with nextBlock := first }) (fun _ => rfl) u x).trans (if_neg hne)
  · rfl

theorem setBack_named {q : Run} {x : BatchId} {first count : Nat} {m : Modulation} {last : LastMark}
    (hc : q.content = .batch x first count m last) (he : q.ended = false) (u : State) :
    findBatch x (setBack q u) = (findBatch x u).map fun b => { b with nextBlock := first } := by
  simp only [setBack, hc, he, Bool.false_eq_true, if_false]
  exact (findBatch_modBatch (f := fun b => { b with nextBlock := first }) (fun _ => rfl) u x).trans (if_pos rfl)

theorem setBacks_unnamed {rs : List Run} {x : BatchId} (h : ∀ q ∈ rs, q.names x = false) (u : State) :
    findBatch x (rs.foldl (fun s r => setBack r s) u) = findBatch x u := by
  induction rs generalizing u with
  | nil => rfl
  | cons p rs ih =>
    rw [List.foldl_cons, ih (fun q hq => h q (by simp [hq])), setBack_unnamed (h p (by simp))]

/-- A record that one run alone names is set back to that run's first block. -/
theorem setBacks_named {q : Run} {x : BatchId} {first count : Nat} {m : Modulation} {last : LastMark}
    (hc : q.content = .batch x first count m last) (he : q.ended = false) {rs : List Run} (hq : q ∈ rs)
    (honly : ∀ p ∈ rs, p.names x = true → p = q) (u : State) :
    findBatch x (rs.foldl (fun s r => setBack r s) u) = (findBatch x u).map fun b => { b with nextBlock := first } := by
  induction rs generalizing u with
  | nil => cases hq
  | cons p rs ih =>
    have htail (p' : Run) (hp : p' ∈ rs) (hn : p'.names x = true) : p' = q := honly p' (by simp [hp]) hn
    rw [List.foldl_cons]
    by_cases hin : q ∈ rs
    · rw [ih hin htail]
      cases hn : p.names x with
      | false => rw [setBack_unnamed hn]
      | true =>
        rw [honly p (by simp) hn, setBack_named hc he, Option.map_map]
        rfl
    · obtain rfl : q = p := by simpa [hin] using hq
      rw [setBacks_unnamed fun p' hp => ?_, setBack_named hc he]
      cases hn : p'.names x with
      | false => rfl
      | true => exact absurd (htail p' hp hn ▸ hp) hin

/-- The table after an immediate release is that of its set-backs. -/
theorem findBatch_releaseNow {c : Carrier} {u : State} (hk : (u.car c).key ≠ .probe) (sl : Option SlotRef) :
    ∃ w : State, w.batches = u.batches ∧
      ∀ x, findBatch x (releaseNow c sl u) = findBatch x ((u.car c).timer.runs.foldl (fun s r => setBack r s) w) := by
  refine ⟨((u.car c).timer.runs.filter fun r => some r.slot ≠ sl).foldl (fun s r => cutRun c r s) u,
    foldl_keeps (fun t => t.batches) (by simp) _ u, fun x => findBatch_congr ?_ x⟩
  unfold releaseNow
  rw [if_neg hk]
  simp

/-! ### The slots of discarded runs (R100, R117) -/

/-- Of the discarded runs of a slot the first gives it the code; the codes after it stand no higher. -/
theorem cutBy_first (rs : List Run) (sl : SlotRef) (h : Option SlotOutcome) :
    cutBy rs sl h = match rs.find? fun q => q.slot = sl with
      | some q => mergeCode h { code := .cut, id := q.batchId }
      | none => h := by
  have hcut (id : Option BatchId) : ∃ o, mergeCode h { code := .cut, id := id } = some o ∧ o.code = .cut := by
    by_cases hh : ∀ o, h = some o → o.code ≠ .cut
    · exact ⟨_, mergeCode_takesCut hh id, rfl⟩
    · push Not at hh
      obtain ⟨o, rfl, ho⟩ := hh
      exact ⟨o, mergeCode_cut ho _, ho⟩
  unfold cutBy
  induction rs with
  | nil => rfl
  | cons q qs ih =>
    by_cases hq : q.slot = sl
    · obtain ⟨o, ho, hcode⟩ := hcut q.batchId
      simp only [List.find?_cons, List.filter_cons, hq, decide_true, if_true, List.foldl_cons, cutOf, ho]
      exact List.foldl_fixed' (fun q => mergeCode_cut hcode (cutOf q)) _
    · simpa [List.find?_cons, List.filter_cons, hq] using ih

/-- The slots after a guard fault: GUARD_FAULT for the run's own, CUT for those of the other discarded runs. -/
theorem faultCodes (rs : List Run) (r : Run) (id : BatchId) (slots : List OpenSlot) :
    recoded (cutBy (rs.filter fun q => some q.slot ≠ some r.slot))
        (coded (fun x => x = r.slot) { code := .guardFault, id := some id } slots) =
      slots.map fun o =>
        if o.slot = r.slot then { o with held := mergeCode o.held { code := .guardFault, id := some id } }
        else
          match rs.find? fun q => q.slot = o.slot with
          | some q => { o with held := mergeCode o.held { code := .cut, id := q.batchId } }
          | none => o := by
  rw [coded_eq_recoded, recoded_recoded]
  refine List.map_congr_left fun o _ => ?_
  by_cases ho : o.slot = r.slot
  · rw [if_pos ho]
    simp only [ho, decide_true, if_true]
    rw [cutBy_unused (by simp)]
  · rw [if_neg ho]
    have hfind : (rs.filter fun q => some q.slot ≠ some r.slot).find? (fun q => q.slot = o.slot) =
        rs.find? fun q => q.slot = o.slot := by
      rw [List.find?_filter]
      congr 1
      funext q
      by_cases hq : q.slot = o.slot <;> simp [hq, ho]
    simp only [ho, decide_false, Bool.false_eq_true, if_false]
    rw [cutBy_first, hfind]
    cases rs.find? fun q => q.slot = o.slot <;> rfl


/-- A set-back moves nothing of a record but its next block. -/
theorem setBacks_some (rs : List Run) {x : BatchId} {u : State} {b : Batch} (h : findBatch x u = some b) :
    ∃ n, findBatch x (rs.foldl (fun s r => setBack r s) u) = some { b with nextBlock := n } := by
  induction rs generalizing u b with
  | nil => exact ⟨b.nextBlock, h⟩
  | cons q rs ih =>
    rw [List.foldl_cons]
    cases hn : q.names x with
    | false => exact ih ((setBack_unnamed hn u).trans h)
    | true =>
      cases hc : q.content with
      | marker => simp [Run.names, Run.batchId, hc] at hn
      | batch y first count m last =>
        obtain ⟨rfl, he⟩ : y = x ∧ q.ended = false := by simpa [Run.names, Run.batchId, hc] using hn
        obtain ⟨n, hn⟩ := ih (b := { b with nextBlock := first }) (by rw [setBack_named hc he, h]; rfl)
        exact ⟨n, hn⟩

/-! ### A guard fault before the hand-over (R83, R106) -/

/-- The slot coded, the carrier released, and the batch ended. -/
def faultEnded (c : Carrier) (r : Run) (id : BatchId) (u : State) : State :=
  endBatch id .cut (releaseNow c (some r.slot) (assignCode c r.slot .guardFault (some id) u))

theorem guardFault_eq (c : Carrier) (r : Run) (id : BatchId) (u : State) :
    guardFault c r id u = latchGuardReal c (handOver c (faultEnded c r id u)) := rfl

section
variable {c : Carrier} {r : Run} {id : BatchId} {u : State} (hk : (u.car c).key ≠ .probe)
include hk

theorem findBatch_faultReleased : ∃ w : State, w.batches = u.batches ∧ ∀ x,
    findBatch x (releaseNow c (some r.slot) (assignCode c r.slot .guardFault (some id) u)) =
      findBatch x ((u.car c).timer.runs.foldl (fun s r => setBack r s) w) := by
  obtain ⟨w, hw, hfind⟩ := findBatch_releaseNow (c := c) (u := assignCode c r.slot .guardFault (some id) u) (by simpa using hk) (some r.slot)
  exact ⟨w, by simpa using hw, by simpa using hfind⟩

/-- Another record after the fault: as it was where no discarded run names it, else set back to that run's first block. -/
theorem findBatch_faultEnded {a : Batch} (ha : findBatch a.id u = some a) (hne : a.id ≠ id) :
    ((∀ q ∈ (u.car c).timer.runs, q.names a.id = false) → findBatch a.id (faultEnded c r id u) = some a) ∧
    ∀ q first count m last, q ∈ (u.car c).timer.runs → q.content = .batch a.id first count m last → q.ended = false →
      (∀ p ∈ (u.car c).timer.runs, p.names a.id = true → p = q) →
      findBatch a.id (faultEnded c r id u) = some { a with nextBlock := first } := by
  obtain ⟨w, hw, hfind⟩ := findBatch_faultReleased (r := r) (id := id) hk
  have ha' : findBatch a.id w = some a := (findBatch_congr hw _).trans ha
  rw [faultEnded, findBatch_endBatch, if_neg hne, hfind]
  exact ⟨fun hnone => (setBacks_unnamed hnone w).trans ha', fun q first count m last hq hc he honly => by
    rw [setBacks_named hc he hq honly, ha']
    rfl⟩

variable {b : Batch} (hf : findBatch id u = some b)
include hf

theorem faultReleased_some : ∃ n,
    findBatch id (releaseNow c (some r.slot) (assignCode c r.slot .guardFault (some id) u)) = some { b with nextBlock := n } := by
  obtain ⟨w, hw, hfind⟩ := findBatch_faultReleased (r := r) (id := id) hk
  obtain ⟨n, hn⟩ := setBacks_some (u.car c).timer.runs ((findBatch_congr hw id).trans hf)
  exact ⟨n, (hfind id).trans hn⟩

theorem faultEnded_frees (h : BlocksAccounted u) : (∀ n, some n ∈ b.blocks → (readBlock n (faultEnded c r id u)).tag = .free) ∧
    (faultEnded c r id u).store.freeCount = u.store.freeCount + (b.blocks.filterMap fun x => x).length := by
  obtain ⟨n, hn⟩ := faultReleased_some (r := r) hk hf
  have hcoded : BlocksAccounted (assignCode c r.slot .guardFault (some id) u) := blocksAccounted_congr (by simp) (by simp) h
  simpa [faultEnded] using endBatch_frees ((releaseNow_both c (some r.slot)).2 hcoded) hn .cut

variable (hc : b.carrier = c)
include hc

/-- The carrier after the fault: released, with no run, the batch standing nowhere and counted DROPPED. -/
theorem faultEnded_car : let k := (faultEnded c r id u).car c
    k.key = .released ∧ k.word = centreWord (activeWords c u) ∧ NoRuns k.timer ∧
    k.counters = { (u.car c).counters with dropped := satInc (u.car c).counters.dropped } ∧
    ∃ os, k.sched = { (u.car c).sched with
      onAir := if (u.car c).sched.onAir = some id then none else (u.car c).sched.onAir
      stop := none
      incoming := if (u.car c).sched.incoming = some id then none else (u.car c).sched.incoming
      stack := (u.car c).sched.stack.filter fun x => x ≠ id
      openSlots := os } := by
  obtain ⟨n, hn⟩ := faultReleased_some (r := r) hk hf
  obtain ⟨-, -, -, hcar, -⟩ := endBatch_some hn .cut
  have hhome : ({ b with nextBlock := n } : Batch).carrier = c := hc
  obtain ⟨hreleased, os, hsched⟩ := (releaseNow_same c (some r.slot) (assignCode c r.slot .guardFault (some id) u)).2 (by simpa using hk)
  rw [hsched] at hreleased
  rw [hhome, hreleased] at hcar
  intro k
  rw [show k = _ from hcar]
  refine ⟨rfl, by simp [dropFromCarrier, activeWords, activeRecord], ⟨rfl, rfl, rfl⟩, by simp [endCounters], os, ?_⟩
  simp [dropFromCarrier, assignCode_same]

theorem faultEnded_others {d : Carrier} (hd : d ≠ c) : (faultEnded c r id u).car d = u.car d := by
  obtain ⟨n, hn⟩ := faultReleased_some (r := r) hk hf
  obtain ⟨-, -, -, -, hothers⟩ := endBatch_some hn .cut
  rw [faultEnded, hothers d (by simpa [hc] using hd)]
  simp [hd]

omit hf hc in
theorem faultEnded_openSlots (hr : r ∈ (u.car c).timer.runs) (ho : ∀ q ∈ (u.car c).timer.runs, ∃ o ∈ (u.car c).sched.openSlots, o.slot = q.slot) :
    ((faultEnded c r id u).car c).sched.openSlots = (u.car c).sched.openSlots.map fun o =>
      if o.slot = r.slot then { o with held := mergeCode o.held { code := .guardFault, id := some id } }
      else
        match (u.car c).timer.runs.find? fun q => q.slot = o.slot with
        | some q => { o with held := mergeCode o.held { code := .cut, id := q.batchId } }
        | none => o := by
  have hopen := assignIn_open (ho r hr) { code := .guardFault, id := some id }
  rw [← faultCodes, ← hopen, faultEnded, (endBatch_car _ _ _ _).2.2.2.2.2.2.2.2.2.1, releaseNow_openSlots (by simpa using hk)]
  · simp [assignCode_same]
  · intro q hq
    simp only [assignCode_same, hopen] at hq ⊢
    exact open_of_slots (coded_slots _ _ _) (ho q hq)

/-- The batch on air after the fault, and the record of any other batch: an incoming one is handed over where the fault leaves
nothing on air (R96). -/
theorem faultHandOver :
    let x := (u.car c).sched
    let t := handOver c (faultEnded c r id u)
    let y := (t.car c).sched
    let freed := x.onAir = some id ∨ x.onAir = none
    y.stop = none ∧
      (∀ a, freed → x.incoming = some a → a ≠ id → y.onAir = some a ∧ y.incoming = none ∧
        y.stack = x.stack.filter fun q => q ≠ a ∧ q ≠ id) ∧
      (freed → x.incoming = none ∨ x.incoming = some id → y.onAir = none ∧ y.incoming = none ∧
        y.stack = x.stack.filter fun q => q ≠ id) ∧
      (¬ freed → y.onAir = x.onAir ∧ y.stack = x.stack.filter (fun q => q ≠ id) ∧
        y.incoming = if x.incoming = some id then none else x.incoming) ∧
      ∀ a, a ≠ id → findBatch a t = (findBatch a (faultEnded c r id u)).map fun b =>
        { b with state := if freed ∧ x.incoming = some a then BatchState.onAir else b.state } := by
  obtain ⟨-, -, -, -, os, hsched⟩ := faultEnded_car (r := r) hk hf hc
  intro x t y freed
  have hair : freed → ((faultEnded c r id u).car c).sched.onAir = none := by
    rw [hsched]
    rintro (h | h)
    · exact if_pos h
    · exact (congrArg _ h).trans (ite_self _)
  by_cases htaken : freed ∧ ∃ a, x.incoming = some a ∧ a ≠ id
  · obtain ⟨hfreed, a, hi, hne⟩ := htaken
    have hinc : ((faultEnded c r id u).car c).sched.incoming = some a := by
      rw [hsched]
      exact (if_neg fun e => hne (Option.some.inj (hi.symm.trans e))).trans hi
    obtain ⟨hy, hfind⟩ := handOver_takes (hair hfreed) hinc
    rw [show y = _ from hy, hsched]
    refine ⟨rfl, fun a' _ hi' _ => ?_, fun _ h => ?_, fun h => absurd hfreed h, fun a' _ => (hfind a').trans ?_⟩
    · obtain rfl : a = a' := Option.some.inj (hi.symm.trans hi')
      exact ⟨rfl, rfl, by simp [List.filter_filter, x]⟩
    · rw [hi] at h
      exact absurd h (by simp [hne])
    · by_cases ha : a' = a
      · subst ha
        simp [hfreed, hi]
      · simp [ha, hi, Ne.symm ha]
  · have hinc : freed → (if x.incoming = some id then none else x.incoming) = none := fun hfreed => by
      split
      · rfl
      · next hi => exact Option.eq_none_iff_forall_ne_some.2 fun a ha => htaken ⟨hfreed, a, ha, fun e => hi (e ▸ ha)⟩
    have honair : ¬ freed → (if x.onAir = some id then none else x.onAir) = x.onAir := fun h => if_neg fun e => h (.inl e)
    have hstays : t = faultEnded c r id u := by
      refine handOver_none ?_
      rw [hsched]
      by_cases hfreed : freed
      · exact .inr (hinc hfreed)
      · exact .inl fun e => hfreed (.inr ((honair hfreed).symm.trans e))
    rw [show y = ((faultEnded c r id u).car c).sched from by rw [← hstays], hstays, hsched]
    refine ⟨rfl, fun a hfreed hi hne => absurd ⟨hfreed, a, hi, hne⟩ htaken, fun hfreed _ => ⟨?_, hinc hfreed, rfl⟩,
      fun h => ⟨honair h, rfl, rfl⟩, fun a hne => ?_⟩
    · rw [hsched] at hair
      exact hair hfreed
    · have hno : ¬ (freed ∧ x.incoming = some a) := fun ⟨hfreed, hi⟩ => htaken ⟨hfreed, a, hi, hne⟩
      simp [hno]

end

/-! ### The 40th place of a block (R82, R84) -/

theorem blockNumber_of {id : BatchId} {i n : Nat} {s : State} {b : Batch} (hb : findBatch id s = some b)
    (hn : b.blocks.getD i none = some n) : blockNumber id i s = some n := by
  rw [blockNumber, hb, Option.bind_some, hn]

/-- A block of a batch in the table is a block of the store. -/
theorem blockNumber_lt {s : State} (h : BlocksAccounted s) {id : BatchId} {i n : Nat} {b : Batch} (hb : findBatch id s = some b)
    (hn : b.blocks.getD i none = some n) : n < Config.storeSize := by
  obtain ⟨-, -, -, -, hlt, -⟩ := h
  refine hlt n (List.mem_flatMap.2 ⟨b, (findBatch_some hb).2, mem_heldIn.2 ?_⟩)
  rw [List.getD_eq_getElem?_getD] at hn
  cases hx : b.blocks[i]? with
  | none => rw [hx] at hn; cases hn
  | some y =>
    rw [hx] at hn
    exact List.mem_of_getElem? (hx.trans (congrArg some hn))

theorem readBlock_writeTag {s : State} (hw : s.store.wf = true) {n : Nat} (hn : n < Config.storeSize) (t : BlockTag) (k : Nat) :
    readBlock k (writeTag n t s) = if k = n then { readBlock n s with tag := t } else readBlock k s :=
  readBlock_writeBlock hw hn k _

/-- With the guard test disarmed, the tag written SPENT reads SPENT and the run goes on. -/
theorem closeBlock_spent {c : Carrier} {r : Run} {id : BatchId} {i n : Nat} {s : State} (hg : (s.car c).guardArmed = false)
    (hw : s.store.wf = true) (hb : blockNumber id i s = some n) (hn : n < Config.storeSize) :
    closeBlock c r id i s = advanceRun c r (writeTag n .spent s) := by
  have hspend : spendBlock id i s = writeTag n .spent s := by simp only [spendBlock, hb]
  have hb' : blockNumber id i (writeTag n .spent s) = some n := by
    rw [← hb]
    exact congrArg (Option.bind · _) (findBatch_congr (writeTag_keeps n .spent s).2.2.1 id)
  have hread : readBackSpent id i (writeTag n .spent s) = true := by
    simp only [readBackSpent, hb', readBlock_writeTag hw hn, if_true, decide_true]
  unfold closeBlock
  rw [if_neg (by simp [hg]), hspend, if_pos hread]

theorem closeBlock_test {c : Carrier} {r : Run} {id : BatchId} {i : Nat} {s : State} (hg : (s.car c).guardArmed = true) :
    closeBlock c r id i s = advanceRun c r (testFault c s) := if_pos hg

theorem testFault_eq (c : Carrier) (s : State) : testFault c s =
    (s.setCar c { s.car c with
      guardArmed := false, guardMarker := (s.car c).guardMarker || !latched (.storeGuard c) s }).setMgmt
      { s.mgmt with alarms := s.mgmt.alarms ||| (Alarm.storeGuard c).mask } := by
  simp [testFault, latchGuardTest, latch, State.modCar, latched]

/-- A position of a run past its first drives its word on the carrier as it stands. -/
theorem emitWord_later {r : Run} (hp : r.pos ≠ 0) (c : Carrier) (s : State) : emitWord c r s = s.setCar c { s.car c with
    word := wordOf r.words (symbolLevel r s), counters := drivenCounters r.words (symbolLevel r s) (s.car c).counters } := by
  rw [emitWord, checkCarrier_plain fun h => hp h.1, driveSymbol_eq]

/-! ### One position under the store guard -/

theorem blockPlace_pos {r : Run} {id : BatchId} {i j : Nat} (h : r.blockPlace = some (id, i, j)) : j = r.pos % 40 := by
  unfold Run.blockPlace at h
  split at h
  · split at h
    · obtain ⟨-, -, rfl⟩ := by simpa using h
      rfl
    · cases h
  · cases h

theorem emitSymbol_fault {c : Carrier} {r : Run} {id : BatchId} {i : Nat} {s : State} (h : r.blockPlace = some (id, i, 0))
    (ht : tagMatches id i s = false) : emitSymbol c r s = guardFault c r id s := by
  simp [emitSymbol, h, ht]

theorem emitSymbol_close {c : Carrier} {r : Run} {id : BatchId} {i : Nat} {s : State} (h : r.blockPlace = some (id, i, 39)) :
    emitSymbol c r s = closeBlock c r id i (emitWord c r s) := by
  simp [emitSymbol, h]

theorem tagMatches_free {id : BatchId} {i : Nat} {s : State} {b : Batch} (hb : findBatch id s = some b)
    (h : ∀ n, b.blocks.getD i none = some n → (readBlock n s).tag ≠ .held id i) : tagMatches id i s = false := by
  unfold tagMatches blockNumber
  rw [hb, Option.bind_some]
  split
  · next n hn => simpa using h n hn
  · rfl

/-- The 40th place drives its word on the carrier as it stands, and closes its block. -/
theorem exec_closes {c : Carrier} {s : State} {r : Run} {id : BatchId} {i : Nat} (hr : (s.car c).timer.active = some r)
    (ht : s.tracker.tick = fxTick (s.car c).timer.acc) (hp : r.blockPlace = some (id, i, 39)) :
    exec (.symbolEmit c) s = .next (closeBlock c r id i (s.setCar c { s.car c with
      word := wordOf r.words (symbolLevel r s), counters := drivenCounters r.words (symbolLevel r s) (s.car c).counters })) := by
  have hpos : r.pos ≠ 0 := by
    have := blockPlace_pos hp
    omega
  have hself : s.setCar c (keyedFirst c r s) = s := by
    rw [keyedFirst, if_neg fun h => hpos h.1, State.setCar_self]
  rw [exec_symbolEmit hr ht, hself, emitSymbol_close hp, emitWord_later hpos]

theorem storeGuard_ne_zero (c : Carrier) : (Alarm.storeGuard c).mask ≠ 0 := by cases c <;> decide

theorem latched_of_or {c : Carrier} {x : BitVec 32} {t : State} (h : t.mgmt.alarms = x ||| (Alarm.storeGuard c).mask) :
    latched (.storeGuard c) t = true := by
  have hand := or_and_self x (Alarm.storeGuard c).mask 0#32
  rw [BitVec.or_zero] at hand
  rw [latched, h, hand]
  exact bne_iff_ne.2 (storeGuard_ne_zero c)

/-- Settles O46: a fault is `faultEnded` and a hand-over; a 40th place closes its block, SPENT or under the guard test. -/
theorem storeGuardChecks : Obligations.StoreGuardChecks := by
  unfold Obligations.StoreGuardChecks
  intro c s r id i j b hacc hsch hr ht hplace hb hc hk
  refine ⟨?_, ?_, ?_⟩
  · rintro rfl htag
    generalize hu : s.setCar c (keyedFirst c r s) = u
    have hcar : u.car c = keyedFirst c r s := by rw [← hu, State.setCar_car_same]
    have hkey : (u.car c).key ≠ .probe := by
      rw [hcar, keyedFirst]
      split
      · simp
      · exact hk
    rw [keyedFirst_same] at hcar
    have hsched : (u.car c).sched = (s.car c).sched := by rw [hcar]
    have hcounters : (u.car c).counters = (s.car c).counters := by rw [hcar]
    have htimer : (u.car c).timer = (s.car c).timer := by rw [hcar]
    have hothers (d : Carrier) (hd : d ≠ c) : u.car d = s.car d := by rw [← hu, State.setCar_car_other _ _ hd]
    have hfind (x : BatchId) : findBatch x u = findBatch x s := findBatch_congr (by rw [← hu]; rfl) x
    have hub : findBatch id u = some b := (hfind id).trans hb
    have hacc' : BlocksAccounted u := blocksAccounted_congr (by rw [← hu]; rfl) (by rw [← hu]; rfl) hacc
    have htags : tagMatches id i u = false :=
      (tagMatches_congr (by rw [← hu]; rfl) (by rw [← hu]; rfl) id i).trans (tagMatches_free hb htag)
    obtain ⟨hreleased, hword, hruns, hcount, -⟩ := faultEnded_car (r := r) hkey hub hc
    obtain ⟨hfreed, hfree⟩ := faultEnded_frees (r := r) hkey hub hacc'
    obtain ⟨hstop, hgiven, hnone, hstands, hrecords⟩ := faultHandOver (r := r) hkey hub hc
    have hslots := faultEnded_openSlots (r := r) (id := id) hkey (by simp [LaunchTimer.runs, htimer, hr])
    have hothers' (d : Carrier) (hd : d ≠ c) := (faultEnded_others (r := r) hkey hub hc hd).trans (hothers d hd)
    simp only [hsched, htimer, hcounters] at hcount hgiven hnone hstands hrecords hslots
    refine ⟨latchGuardReal c (handOver c (faultEnded c r id u)), ?_, ?_⟩
    · rw [exec_symbolEmit hr ht, hu, emitSymbol_fault hplace htags, guardFault_eq]
    refine ⟨?_, by simp [hreleased], by simpa using hruns, ?_, latched_of_or (x := s.mgmt.alarms) ?_, by simp [latchGuardReal],
      by simp [hcount], fun n hn => ?_, ?_, ?_, by simp [faultEnded, ← hu], by simp [faultEnded, ← hu], by simp [faultEnded, ← hu],
      by simp [faultEnded, ← hu], fun d hd => by simp [hd, hothers'], ?_⟩
    · rw [findBatch_congr (latchGuardReal_keeps c _).2.2.1]
      exact findBatch_handOver_none (findBatch_endBatch _ _ _ _ |>.trans (if_pos rfl))
    · rw [(latchGuardReal_car c _ c).2.2.2.1, (handOver_car c _ c).2.2.1, hword, ← hu]
      rfl
    · simp [latchGuardReal, latch, faultEnded, ← hu]
    · simpa [readBlock] using hfreed n hn
    · simpa [← hu] using hfree
    · simp [latchGuardReal, latch, faultEnded, ← hu]
    · simp only [latchGuardReal_car, findBatch_congr (latchGuardReal_keeps c _).2.2.1]
      have hkept : ((handOver c (faultEnded c r id u)).car c).sched.openSlots = ((faultEnded c r id u).car c).sched.openSlots := by
        simp
      refine ⟨hstop, fun hopen => hkept.trans (hslots hopen), fun a ha hne => ?_, hgiven, hnone, hstands⟩
      obtain ⟨hunnamed, hnamed⟩ := findBatch_faultEnded (r := r) (id := id) hkey ((hfind a.id).trans ha) hne
      rw [htimer] at hunnamed hnamed
      simp only [hrecords a.id hne]
      refine ⟨fun h => by rw [hunnamed h]; rfl, fun q first count m last hq hqc he honly => ?_⟩
      rw [hnamed q first count m last hq hqc he honly]
      rfl
  · rintro n rfl hn hg
    have hw : s.store.wf = true := hacc.1
    have hlt := blockNumber_lt hacc hb hn
    refine ⟨_, (exec_closes hr ht hplace).trans (congrArg _ (closeBlock_spent (by simpa using hg) hw (blockNumber_of hb hn) hlt)), ?_⟩
    generalize hx : s.setCar c _ = x
    have hread (k : Nat) := readBlock_writeTag (s := x) (by rw [← hx]; exact hw) hlt .spent k
    rw [advanceRun_eq]
    refine ⟨?_, fun k hk => ?_, by simp [← hx], by simp [← hx], by simp [← hx], ?_, by simp [← hx], by simp [← hx], ?_,
      fun d hd => ?_⟩
    · exact (hread n).trans ((if_pos rfl).trans (by rw [← hx]; rfl))
    · exact (hread k).trans ((if_neg hk).trans (by rw [← hx]; rfl))
    · rw [← hx]
      unfold writeTag writeBlock
      rw [if_pos hlt]
      rfl
    · simpa [← hx] using advanceTimer_spec r (s.car c).timer
    · rw [State.setCar_car_other _ _ hd, (writeTag_keeps n _ x).2.2.2.2.2.2.2.2.2.2.2 d, ← hx, State.setCar_car_other _ _ hd]
  · rintro rfl hg
    refine ⟨_, (exec_closes hr ht hplace).trans (congrArg _ (closeBlock_test (by simpa using hg))), ?_⟩
    rw [testFault_eq, advanceRun_eq]
    refine ⟨rfl, rfl, by simp, by simp, latched_of_or (by simp; rfl), by simp; rfl, by simp, by simp, by simp, ?_,
      fun d hd => by simp [State.setCar_car_other _ _ hd]⟩
    simpa using advanceTimer_spec r (s.car c).timer

end Sys2Proof.Machine
end
